-- ==== Sys2Proof/Word.lean ====
section
/-! DEFINITION. The word types of the machine: the byte of the command stream, the 16-bit sample count and the level of
a one-bit pin (spec/00_scope.md R9). The Cursor is a count, so it is a natural number (spec/10_state.md R21). -/

namespace Sys2Proof

/-- R9: a byte is 8 bits, bit 0 the least significant. -/
abbrev Byte := BitVec 8

/-- R44: the 16-bit sample count of `WAIT16`. -/
abbrev Half := BitVec 16

/-- R12: the level of a one-bit pin, 0 or 1. -/
abbrev Bit := BitVec 1

end Sys2Proof
end

