-- ==== Sys2Proof/Config.lean ====
section
/-! DEFINITION. The implementation parameters of the block: the constants the document fixes (spec/00_scope.md R7), each
taken as printed, and the parameters it leaves open (R8). A parameter on which no rule depends is a constant without a
body: no proof can see its value. -/

namespace Sys2Proof.Config

/-- R7 `SAMPLE_RATE_HZ`: the stream's declared sample rate; informative, no rule computes with it. -/
def sampleRateHz : Nat := 44100

/-- R7 `UNIT_US`: one Sample Clock unit in microseconds. -/
def unitUs : Nat := 23

/-- R7 `WAIT_A_SAMPLES`: nominal length of opcode `0x62` in samples; informative. -/
def waitASamples : Nat := 735

/-- R7 `WAIT_A_US`: the delay opcode `0x62` requests. It is a millisecond constant, not `735 * 23` (conflict C3): at the
true sample rate the wait would be 16666.67 microseconds, so this one is 2 % long (R173). -/
def waitAUs : Nat := 17000

/-- R7 `WAIT_B_SAMPLES`: nominal length of opcode `0x63` in samples; informative. -/
def waitBSamples : Nat := 882

/-- R7 `WAIT_B_US`: the delay opcode `0x63` requests; exact against the true sample rate, not `882 * 23` (C3). -/
def waitBUs : Nat := 20000

/-- R7 `END_PAUSE_US`: the pause after the end-of-stream mute. -/
def endPauseUs : Nat := 2000000

/-- R7 `INIT_SETTLE_US`: the settle delay of the Playback Driver. -/
def initSettleUs : Nat := 500000

/-- R7 `MUTE_SEQ`: the four mute bytes, in that order. -/
def muteSeq : List Byte := [0x9F, 0xBF, 0xDF, 0xFF]

/-- R8 `CW`: the width of the Cursor in bits. OPEN in the spec with the default 32, which is taken here
(DESIGN CHOICE, log 4). -/
def cursorWidth : Nat := 32

/-- R8, R21: the longest stream the Cursor can address, `L <= 2^CW - 1`. -/
def maxStreamLength : Nat := 2 ^ cursorWidth - 1

/-- R8 `TW`: the width of the delay counter (decision D20). -/
abbrev timerWidth : Nat := 32

/-- R8 `TICK_HZ`: the timer ticks once per microsecond (decision D9). -/
def tickHz : Nat := 1000000

/-- R8 `CS_ACTIVE_LEVEL`: the electrical level of an active chip-select. OPEN: no rule depends on it (decision D7), so it
is left free. -/
opaque csActiveLevel : Bit

/-- R8 `SPI_BIT_ORDER`: which bit of a byte the serial bus sends first. -/
inductive BitOrder where
  | msbFirst
  | lsbFirst
  deriving DecidableEq, Repr, Inhabited

/-- R8: the serial bus parameters the document mentions and gives no value: clock polarity and phase (`SPI_MODE`), bus
clock rate (`SPI_HZ`) and bit order (`SPI_BIT_ORDER`). -/
structure BusParams where
  polarity : Bit
  phase    : Bit
  clockHz  : Nat
  bitOrder : BitOrder
  deriving DecidableEq, Repr, Inhabited

/-- R8, R52: the values the bus is configured with. OPEN: no rule depends on them (decision D8), so they are left
free. -/
opaque bus : BusParams

end Sys2Proof.Config
end

