-- ==== Sys2Proof/Syntax.lean ====
section
/-! DEFINITION. The instructions: the six handled classes and `UNHANDLED` (spec/30_encoding.md R63). The eleven
`UNHANDLED` rows of spec/opcode_table.json are eleven mask and match lines of the one instruction `UNHANDLED op` of R65
(log 3). -/

namespace Sys2Proof

/-- R63, R65: one instruction of the command stream, with its operands assembled as R62 says (nothing is scaled). -/
inductive Instr where
  /-- `WAITN k`, opcodes `0x70` to `0x7F`: wait `k + 1` units. -/
  | waitn (k : BitVec 4)
  /-- `PSGW d`, opcode `0x50`: write the data byte `d` to the PSG. -/
  | psgw (d : Byte)
  /-- `WAIT16 n`, opcode `0x61`: wait `n` units. -/
  | wait16 (n : Half)
  /-- `WAIT735`, opcode `0x62`: the fixed wait, variant A. -/
  | wait735
  /-- `WAIT882`, opcode `0x63`: the fixed wait, variant B. -/
  | wait882
  /-- `END`, opcode `0x66`: end of stream. -/
  | endStream
  /-- `UNHANDLED op`: any other opcode byte. -/
  | unhandled (op : Byte)
  deriving DecidableEq, Repr

/-- R65: what the opcode byte alone says, before any operand byte is read. -/
inductive OpClass where
  | waitn (k : BitVec 4)
  | psgw
  | wait16
  | wait735
  | wait882
  | endStream
  | unhandled (op : Byte)
  deriving DecidableEq, Repr

end Sys2Proof
end

