-- ==== Sys2Proof/Machine/State.lean ====
section
/-! DEFINITION. The state of the machine and its environment (spec/10_state.md R20), where its one agent stands, the reasons a step can stop, and
the state after reset (R34, spec/70_reset_and_hazards.md R160). The transient latches `IR`, `OPD`, `LO`, `HI` of R29 are
locals of one step here (the decoded `Instr` and its operands; log 5); the phase machine of Machine/Phase.lean holds
them as registers. -/

namespace Sys2Proof.Machine

/-- R25: the two values of `RUN`. -/
inductive RunState where
  | running
  | stopped
  deriving DecidableEq, Repr

/-- R28: the two values of the chip-select/latch pin. -/
inductive CsState where
  | active
  | idle
  deriving DecidableEq, Repr

/-- R12: the events of `TRACE`; no other event exists. -/
inductive Event where
  /-- The write-enable pin is driven to a level; 0 is active, 1 is idle. -/
  | we (v : Bit)
  /-- The chip-select/latch pin is driven to a state. -/
  | cs (s : CsState)
  /-- One 8-bit serial transfer. -/
  | spi (b : Byte)
  /-- A blocking delay of so many microseconds was requested and honoured. -/
  | delay (us : Nat)
  /-- The Playback Driver configured the bus parameters. -/
  | busConfig
  /-- The Playback Driver signalled completion. -/
  | done
  deriving DecidableEq, Repr

/-- R141: the model-level fault `StreamOverrun(addr)`. -/
structure StreamOverrun where
  addr : Nat
  deriving DecidableEq, Repr

/-- R40, R41: the stream space as cells (offset, byte), offsets strictly rising. An offset without a cell has no byte
(`Memory.unlisted`). -/
abbrev Memory := List Host.Cell

/-- R20: the complete state of the machine and its environment: exactly the fields of the rule's table and nothing else.
(The latches `IR`, `OPD`, `LO`, `HI` are locals of a step, as the rule allows; log 5.) -/
@[ext]
structure State where
  /-- R21 `CURSOR`: the program counter, an offset into the stream. -/
  cursor : Nat
  /-- R25 `RUN`: the only status flag. -/
  run    : RunState
  /-- R27 `WE`: the write-enable pin, active low. -/
  we     : Bit
  /-- R28 `CS`: the chip-select/latch pin. -/
  cs     : CsState
  /-- R30 `DLY`: the down-counter of the sample timer. -/
  dly    : BitVec Config.timerWidth
  /-- R40 `STREAM`: the command stream, read-only for every instruction. -/
  stream : Memory
  /-- R31 `SR_OUT`: the shift register's parallel outputs. -/
  srOut  : Byte
  /-- R32 `PSG_LOG`: the bytes the PSG was told to accept, oldest first. -/
  psgLog : List Byte
  /-- R12, R33 `TRACE`: the events emitted, oldest first. -/
  trace  : List Event
  /-- R33, R141 `FAULT`: none, or the overrun that ended the run. -/
  fault  : Option StreamOverrun
  deriving DecidableEq, Repr

/-- Why a step stops with a fault. -/
inductive Fault where
  /-- R141: a stream read at the offset `addr`, where the stream has no byte; `after` is the state it leaves (`FAULT` set,
  the Cursor as the pseudocode had left it). Raised by `step`: at the opcode fetch, at the operand read of `PSGW`, at the
  two operand reads of `WAIT16`, and again by every later step of the faulted state. Safe: the chip would read some byte
  and carry on; the model does not say which (decision D3). -/
  | streamOverrun (addr : Nat) (after : State)
  deriving DecidableEq, Repr

/-- Why a step, or a move of the host, is refused. -/
inductive Refusal where
  /-- An instruction without a meaning: raised by no arm of `exec`, since every instruction has its meaning. Safe. -/
  | notModelled (mnemonic : String)
  /-- R21, spec/93_implementation_defined.md U7: the stream is longer than the Cursor can address (`L > 2^CW - 1`). Raised
  by `step` on a state that holds such a stream, by `sessionStep` likewise, and by `supplyStream`. Safe: no claim is made about such a stream. -/
  | streamTooLong
  /-- R16: the host tried to change the stream or to start playback while playback is in progress. Raised by the host
  moves of Machine/Session.lean, never by a step. Unsafe for a host that breaks the contract (decision D18, log 12). -/
  | playbackInProgress
  deriving DecidableEq, Repr

/-- R34, R160: the state right after reset, with no stream supplied yet. `SR_OUT` is unspecified in the spec and 0 here
(DESIGN CHOICE, log 1), and `RUN`, which the rules give from the start of a pass on, is `Running` already (DEDUCED,
log 10). The session that begins after reset is `Session.reset` (Machine/Session.lean). -/
def State.reset : State where
  cursor := 0
  run    := .running
  we     := 1
  cs     := .idle
  dly    := 0
  stream := []
  srOut  := 0
  psgLog := []
  trace  := []
  fault  := none

end Sys2Proof.Machine
end

