-- ==== Sys2Proof/Machine/Ops.lean ====
section
/-! DEFINITION. The named operations over the stream, the Cursor, the pins and the timer, each once, and the one way a
run stops with a fault. Sources: spec/20_memory.md, spec/40_hardware_writer.md, spec/41_waits.md,
spec/60_exceptions.md. -/

namespace Sys2Proof.Machine

/-! ### The stream space -/

/-- R42: what an offset without a cell reads as: no byte (the read raises `StreamOverrun`, decision D3). -/
def Memory.unlisted : Option Byte := none

/-- R42: `MemRead(addr, 1)`: the byte at an offset, or none where the stream has no byte there. -/
def Memory.read : Memory → Nat → Option Byte
  | [], _ => Memory.unlisted
  | (b, v) :: rest, a => if b = a then some v else Memory.read rest a

/-- The bytes at `count` ascending offsets from `a`, as far as the stream goes (R43: in ascending order, one byte wide). -/
def Memory.readRun (m : Memory) : Nat → Nat → List Byte
  | _, 0 => []
  | a, count + 1 =>
    match m.read a with
    | none => []
    | some b => b :: Memory.readRun m (a + 1) count

/-- Put a byte at an offset. No instruction does this (R41): it serves the host, which places the stream. -/
def Memory.write : Memory → Nat → Byte → Memory
  | [], a, v => [(a, v)]
  | (b, w) :: rest, a, v =>
    if a < b then (a, v) :: (b, w) :: rest
    else if a = b then (a, v) :: rest
    else (b, w) :: Memory.write rest a v

/-- Put bytes at ascending offsets from `a`. -/
def Memory.writeAll (m : Memory) : Nat → List Byte → Memory
  | _, [] => m
  | a, v :: rest => Memory.writeAll (m.write a v) (a + 1) rest

/-- The cells of these bytes at ascending offsets from `base`. -/
def Memory.cellsFrom : Nat → List Byte → Memory
  | _, [] => []
  | base, b :: rest => (base, b) :: Memory.cellsFrom (base + 1) rest

/-- R40: the stream of these bytes, at offsets `0 .. L-1`. -/
def Memory.ofBytes (bs : List Byte) : Memory := Memory.cellsFrom 0 bs

/-- The canonical form: offsets strictly rising. (No cell can equal what an unlisted offset reads as.) -/
abbrev Memory.wf (m : Memory) : Prop := m.Pairwise fun x y => x.1 < y.1

/-- R40: the offsets are exactly `0 .. L-1`. -/
abbrev Memory.contiguous (m : Memory) : Prop := m.map Prod.fst = List.range m.length

/-- R8, R21: every offset is below `2^CW - 1`, so a contiguous stream has `L <= 2^CW - 1`. -/
def Memory.fits (m : Memory) : Bool := m.all fun c => decide (c.1 < Config.maxStreamLength)

/-! ### The Cursor and the trace -/

/-- R10: `CURSOR <- v`. -/
def setCursor (v : Nat) (s : State) : State := { s with cursor := v }

/-- R21: "advance Cursor by `n`". -/
def advanceCursor (n : Nat) (s : State) : State := setCursor (s.cursor + n) s

/-- R10: `Emit(e)`. -/
def emit (e : Event) (s : State) : State := { s with trace := s.trace ++ [e] }

/-! ### The sample timer -/

/-- R30: load the down-counter. -/
def loadTimer (us : Nat) (s : State) : State := { s with dly := BitVec.ofNat Config.timerWidth us }

/-- R30: one microsecond tick; a counter at 0 stays there. -/
def tickTimer (s : State) : State := if s.dly = 0 then s else { s with dly := s.dly - 1 }

/-- R30: the sequencer waits until the counter is 0. -/
def drainTimer (s : State) : State := { s with dly := 0 }

/-- R100: `Delay(us)`: block for `us` microseconds; nothing else happens while it runs. -/
def delay (us : Nat) (s : State) : State := drainTimer (emit (.delay us) (loadTimer us s))

/-- R101: `DelayUnits(n)`: ONE delay of the product `UNIT_US * n`. -/
def delayUnits (n : Nat) (s : State) : State := delay (Config.unitUs * n) s

/-! ### The Hardware Writer -/

/-- `WE <- v ; Emit(WE(v))`. -/
def driveWe (v : Bit) (s : State) : State := emit (.we v) { s with we := v }

/-- `CS <- c ; Emit(CS(c))`. -/
def driveCs (c : CsState) (s : State) : State := emit (.cs c) { s with cs := c }

/-- R28: the electrical level of the chip-select pin (`CS_ACTIVE_LEVEL` is open). -/
def CsState.level : CsState → Bit
  | .active => Config.csActiveLevel
  | .idle => ~~~Config.csActiveLevel

/-- R80: the event `CS(Idle)` that ends a latch, at which the shift register's outputs become the byte transferred. -/
def releaseLatch (b : Byte) (s : State) : State := { driveCs .idle s with srOut := b }

/-- R80: `LatchByte(b)`. -/
def latchByte (b : Byte) (s : State) : State := releaseLatch b (emit (.spi b) (driveCs .active s))

/-- R32, R81: the `WE(1)` that ends a low pulse: the PSG accepts the byte on the shift register's outputs. -/
def endPulse (s : State) : State := { driveWe 1 s with psgLog := s.psgLog ++ [s.srOut] }

/-- R81: `SendByte(b)`, the sole path to the PSG. -/
def sendByte (b : Byte) (s : State) : State :=
  endPulse (delay Config.unitUs (driveWe 0 (latchByte b (driveWe 1 s))))

/-- Send bytes one after the other, each in its own write transaction. -/
def sendAll : List Byte → State → State
  | [], s => s
  | b :: rest, s => sendAll rest (sendByte b s)

/-- R83: `SilenceAllChannels()`: the four mute bytes, each its own timed transaction, in the fixed order. -/
def silenceAllChannels (s : State) : State := sendAll Config.muteSeq s

/-! ### Taking a fault

The hardware raises no exception (R140): there is no trap entry and no return from one (R145, R146). The one thing a
run can stop on is the model-level fault of R141. -/

/-- R141: `raise StreamOverrun(addr)`: `FAULT` is set, nothing else changes, no event is emitted. -/
def raiseOverrun (addr : Nat) (s : State) : Host.Outcome State Fault Refusal :=
  .fault (.streamOverrun addr { s with fault := some { addr := addr } })

end Sys2Proof.Machine
end

