-- ==== Sys2Proof/Machine/Flags.lean ====
section
/-! DEFINITION. The one status flag, `RUN` (spec/10_state.md R25, R26). There are no condition codes: no instruction
computes a flag from a result. -/

namespace Sys2Proof.Machine

/-- R10: `RUN <- v`. -/
def setRun (v : RunState) (s : State) : State := { s with run := v }

/-- R120: `RUN <- Stopped`, written by `END` only. -/
def stopRun (s : State) : State := setRun .stopped s

/-- R122: `RUN <- Running`, written at the start of a pass only. -/
def startRun (s : State) : State := setRun .running s

end Sys2Proof.Machine
end

