-- ==== Sys2Proof/Machine/Control.lean ====
section
/-! DEFINITION. The instruction that stops a pass, `END`, and the opcodes the machine does not handle
(spec/42_end_unhandled.md R120, R121). -/

namespace Sys2Proof.Machine

/-- R120: `END`: the Cursor becomes 0 (not `CURSOR + 1`, conflict C4), then the mute, the pause, and `Stopped`. -/
def execEndStream (s : State) : Host.Outcome State Fault Refusal :=
  .next (stopRun (delay Config.endPauseUs (silenceAllChannels (setCursor 0 s))))

/-- R121: `UNHANDLED op`: nothing changes, so the next step fetches the same byte: the machine stalls for ever. The
document flags this as very likely a latent bug (an infinite loop on any unsupported opcode); the model keeps it and
skips nothing. -/
def execUnhandled (_op : Byte) (s : State) : Host.Outcome State Fault Refusal :=
  .next s

end Sys2Proof.Machine
end

