-- ==== Sys2Proof/Machine/Operands.lean ====
section
/-! DEFINITION. The operand values of the instructions (spec/30_encoding.md R62): how many Sample Clock units a wait
operand asks for. All are unsigned and exact (spec/41_waits.md R106). The bytes themselves are assembled by Decode.lean. -/

namespace Sys2Proof.Machine

/-- R62 (a), R102: the short wait's payload `k` asks for `k + 1` units, in `1..16`. -/
def shortWaitUnits (k : BitVec 4) : Nat := k.toNat + 1

/-- R62 (c), R103: the 16-bit count is the number of units, in `0..65535`. -/
def countUnits (n : Half) : Nat := n.toNat

/-- R62 (b), R85: the data byte is passed unchanged. -/
def dataByte (d : Byte) : Byte := d

end Sys2Proof.Machine
end

