-- ==== Sys2Proof/Machine/Waits.lean ====
section
/-! DEFINITION. The four wait instructions (spec/41_waits.md R102 to R105): each advances the Cursor past itself and
requests one delay. The opcode and operand bytes have been read by the fetch (Machine/Fetch.lean). -/

namespace Sys2Proof.Machine

/-- The common form of a wait: advance the Cursor, then block. -/
def advanceThen (bytes : Nat) (wait : State → State) (s : State) : Host.Outcome State Fault Refusal :=
  .next (wait (advanceCursor bytes s))

/-- R102: `WAITN k`. -/
def execWaitn (k : BitVec 4) (s : State) : Host.Outcome State Fault Refusal :=
  advanceThen 1 (delayUnits (shortWaitUnits k)) s

/-- R103: `WAIT16 n`: by 1 to the operand, by 2 past it. -/
def execWait16 (n : Half) (s : State) : Host.Outcome State Fault Refusal :=
  advanceThen 2 (delayUnits (countUnits n)) (advanceCursor 1 s)

/-- R104: `WAIT735`: the millisecond constant, not a count of units. -/
def execWait735 (s : State) : Host.Outcome State Fault Refusal :=
  advanceThen 1 (delay Config.waitAUs) s

/-- R105: `WAIT882`: the millisecond constant, not a count of units. -/
def execWait882 (s : State) : Host.Outcome State Fault Refusal :=
  advanceThen 1 (delay Config.waitBUs) s

end Sys2Proof.Machine
end

