-- ==== Sys2Proof/Machine/Writer.lean ====
section
/-! DEFINITION. The register-write instruction `PSGW` (spec/40_hardware_writer.md R85). Its data byte has been read by
the fetch (Machine/Fetch.lean). -/

namespace Sys2Proof.Machine

/-- R85, R86: `PSGW d`: by 1 to the operand, one whole write transaction, by 1 past it. -/
def execPsgw (d : Byte) (s : State) : Host.Outcome State Fault Refusal :=
  .next (advanceCursor 1 (sendByte (dataByte d) (advanceCursor 1 s)))

end Sys2Proof.Machine
end

