-- ==== Sys2Proof/Machine/Dispatch.lean ====
section
/-! DEFINITION. The meaning of every instruction: one arm per constructor of `Instr` (spec/30_encoding.md R69). -/

namespace Sys2Proof.Machine

def exec (i : Instr) (s : State) : Host.Outcome State Fault Refusal :=
  match i with
  | .waitn k => Sys2Proof.Machine.execWaitn k s
  | .psgw d => Sys2Proof.Machine.execPsgw d s
  | .wait16 n => Sys2Proof.Machine.execWait16 n s
  | .wait735 => Sys2Proof.Machine.execWait735 s
  | .wait882 => Sys2Proof.Machine.execWait882 s
  | .endStream => Sys2Proof.Machine.execEndStream s
  | .unhandled op => Sys2Proof.Machine.execUnhandled op s

end Sys2Proof.Machine
end

