-- ==== Sys2Proof/WellFormed.lean ====
section
/-! DEFINITION. Which terms of `Instr` are instructions of the machine: an `UNHANDLED op` stands only for an opcode that
none of the six handled classes claims (spec/30_encoding.md R63, R65). Every other field takes every value of its type
(R62: "every operand value is legal", spec/93_implementation_defined.md). -/

namespace Sys2Proof

/-- R63: the opcodes of the six handled classes. -/
def handledOpcode (op : Byte) : Bool :=
  op &&& 0xF0 == 0x70 || op == 0x50 || op == 0x61 || op == 0x62 || op == 0x63 || op == 0x66

/-- R65: the instruction is one the decoder can produce. -/
def Instr.wf : Instr → Bool
  | .waitn _ => true
  | .psgw _ => true
  | .wait16 _ => true
  | .wait735 => true
  | .wait882 => true
  | .endStream => true
  | .unhandled op => !handledOpcode op

/-- R67, R165: the instruction belongs to one of the six handled classes. -/
def Instr.handled : Instr → Bool
  | .waitn _ => true
  | .psgw _ => true
  | .wait16 _ => true
  | .wait735 => true
  | .wait882 => true
  | .endStream => true
  | .unhandled _ => false

end Sys2Proof
end

