-- ==== Sys2Proof/Decode.lean ====
section
/-! DEFINITION. Decoding a byte sequence into an instruction and encoding it back (spec/30_encoding.md). The opcode byte
alone decides the class (R65) and the length (R66); an operand byte is never decoded as an opcode. Decoding fails only
where the bytes end inside an instruction, and says by name which byte is missing. -/

namespace Sys2Proof

/-- R65: the class of an opcode byte, total on all 256 values. -/
def classify (op : Byte) : OpClass :=
  if op &&& 0xF0 = 0x70 then .waitn (op.setWidth 4)
  else if op = 0x50 then .psgw
  else if op = 0x61 then .wait16
  else if op = 0x62 then .wait735
  else if op = 0x63 then .wait882
  else if op = 0x66 then .endStream
  else .unhandled op

/-- R66: how many bytes an instruction of this class has. -/
def OpClass.length : OpClass → Nat
  | .waitn _ => 1
  | .psgw => 2
  | .wait16 => 3
  | .wait735 => 1
  | .wait882 => 1
  | .endStream => 1
  | .unhandled _ => 1

/-- R66: the length of an instruction, from its opcode byte alone. -/
def instrLength (op : Byte) : Nat := (classify op).length

/-- R44, R62: the 16-bit operand, low byte first: `(hi << 8) | lo`. -/
def assemble16 (lo hi : Byte) : Half := (hi.setWidth 16 <<< 8) ||| lo.setWidth 16

/-- The byte an instruction needs and the bytes given do not have. -/
inductive DecodeError where
  /-- No opcode byte. -/
  | noOpcode
  /-- `PSGW` without its data byte. -/
  | noData
  /-- `WAIT16` without its low byte. -/
  | noLow
  /-- `WAIT16` with its low byte and without its high byte. -/
  | noHigh
  deriving DecidableEq, Repr

/-- R142: the place in the instruction of the byte that is missing. -/
def DecodeError.index : DecodeError → Nat
  | .noOpcode => 0
  | .noData => 1
  | .noLow => 1
  | .noHigh => 2

/-- R61, R63, R65: the instruction that stands at the head of the bytes, and the bytes after it. -/
def decode : List Byte → Except DecodeError (Instr × List Byte)
  | [] => .error .noOpcode
  | op :: rest =>
    match classify op with
    | .waitn k => .ok (.waitn k, rest)
    | .psgw =>
      match rest with
      | [] => .error .noData
      | d :: rest => .ok (.psgw d, rest)
    | .wait16 =>
      match rest with
      | [] => .error .noLow
      | [_] => .error .noHigh
      | lo :: hi :: rest => .ok (.wait16 (assemble16 lo hi), rest)
    | .wait735 => .ok (.wait735, rest)
    | .wait882 => .ok (.wait882, rest)
    | .endStream => .ok (.endStream, rest)
    | .unhandled op => .ok (.unhandled op, rest)

/-- R61, R63, R68: the bytes of an instruction, at ascending stream offsets. -/
def encode : Instr → List Byte
  | .waitn k => [0x70 + k.setWidth 8]
  | .psgw d => [0x50, d]
  | .wait16 n => [0x61, n.setWidth 8, (n >>> 8).setWidth 8]
  | .wait735 => [0x62]
  | .wait882 => [0x63]
  | .endStream => [0x66]
  | .unhandled op => [op]

/-- R60, R63: the encoded length of an instruction in bytes. -/
def Instr.length : Instr → Nat
  | .waitn _ => 1
  | .psgw _ => 2
  | .wait16 _ => 3
  | .wait735 => 1
  | .wait882 => 1
  | .endStream => 1
  | .unhandled _ => 1

/-- The bytes of a stream made of these instructions and nothing between them (R45). -/
def encodeAll : List Instr → List Byte
  | [] => []
  | i :: rest => encode i ++ encodeAll rest

/-- Byte `i` of a number whose bit 0 is the least significant bit of byte 0. -/
def byteOfNat (w i : Nat) : Byte := BitVec.ofNat 8 (w / 256 ^ i)

/-- The three bytes (the longest instruction) of an opcode-table word of `nbits` bits, the bits above `nbits` zero. -/
def tableWordBytes (nbits w : Nat) : List Byte :=
  let w := w % 2 ^ nbits
  [byteOfNat w 0, byteOfNat w 1, byteOfNat w 2]

/-- The instruction the decoder reads from an opcode-table word. -/
def decodeTableWord (nbits w : Nat) : Option Instr :=
  match decode (tableWordBytes nbits w) with
  | .ok (i, _) => some i
  | .error _ => none

/-- R70: a row of the opcode table: which opcode bytes it takes, and what it says of them. -/
structure OpcodeRow where
  value    : Byte
  mask     : Byte
  mnemonic : String
  length   : Nat
  consumed : Nat
  deriving DecidableEq, Repr

/-- Whether the row takes the opcode byte. -/
def OpcodeRow.takes (r : OpcodeRow) (op : Byte) : Bool := op &&& r.mask == r.value

/-- The rows of spec/opcode_table.json for the handled classes. -/
def handledRows : List OpcodeRow :=
  [⟨0x70, 0xF0, "WAITN", 1, 1⟩, ⟨0x50, 0xFF, "PSGW", 2, 2⟩, ⟨0x61, 0xFF, "WAIT16", 3, 3⟩,
   ⟨0x62, 0xFF, "WAIT735", 1, 1⟩, ⟨0x63, 0xFF, "WAIT882", 1, 1⟩, ⟨0x66, 0xFF, "END", 1, 1⟩]

/-- The rows of spec/opcode_table.json that partition the 235 unhandled values. -/
def unhandledRows : List OpcodeRow :=
  [⟨0x00, 0xC0, "UNHANDLED", 1, 0⟩, ⟨0x40, 0xF0, "UNHANDLED", 1, 0⟩, ⟨0x51, 0xFF, "UNHANDLED", 1, 0⟩,
   ⟨0x52, 0xFE, "UNHANDLED", 1, 0⟩, ⟨0x54, 0xFC, "UNHANDLED", 1, 0⟩, ⟨0x58, 0xF8, "UNHANDLED", 1, 0⟩,
   ⟨0x60, 0xFF, "UNHANDLED", 1, 0⟩, ⟨0x64, 0xFE, "UNHANDLED", 1, 0⟩, ⟨0x67, 0xFF, "UNHANDLED", 1, 0⟩,
   ⟨0x68, 0xF8, "UNHANDLED", 1, 0⟩, ⟨0x80, 0x80, "UNHANDLED", 1, 0⟩]

/-- R70: the opcode table, all 17 rows of spec/opcode_table.json. -/
def opcodeTable : List OpcodeRow := handledRows ++ unhandledRows

/-- The mnemonic of a class in spec/opcode_table.json. -/
def OpClass.mnemonic : OpClass → String
  | .waitn _ => "WAITN"
  | .psgw => "PSGW"
  | .wait16 => "WAIT16"
  | .wait735 => "WAIT735"
  | .wait882 => "WAIT882"
  | .endStream => "END"
  | .unhandled _ => "UNHANDLED"

end Sys2Proof
end

