-- ==== Sys2Proof/Machine/Fetch.lean ====
section
/-! DEFINITION. Fetching and decoding one instruction at the Cursor (spec/30_encoding.md R69, spec/20_memory.md R43),
and the overrun where the stream ends inside it (spec/60_exceptions.md R141, R142). -/

namespace Sys2Proof.Machine

/-- R43, R66: the bytes of the instruction at an offset, in the order they are read: the opcode, then as many operand
bytes as the opcode asks for, and none after the first offset that has no byte. -/
def fetchBytes (m : Memory) (c : Nat) : List Byte :=
  match m.read c with
  | none => []
  | some op => op :: m.readRun (c + 1) (instrLength op - 1)

/-- R69: read the opcode at the Cursor, and its operands, and decode them. -/
def fetch (s : State) : Except DecodeError Instr :=
  match decode (fetchBytes s.stream s.cursor) with
  | .ok (i, _) => .ok i
  | .error e => .error e

/-- R141: the Cursor when a read overruns: unmoved at the opcode fetch, advanced by 1 at an operand read. -/
def cursorAtOverrun (e : DecodeError) (c : Nat) : Nat :=
  match e with
  | .noOpcode => c
  | .noData => c + 1
  | .noLow => c + 1
  | .noHigh => c + 1

/-- R141, R144: the overrun at the first byte that is missing. -/
def fetchOverrun (e : DecodeError) (s : State) : Host.Outcome State Fault Refusal :=
  raiseOverrun (s.cursor + e.index) (setCursor (cursorAtOverrun e s.cursor) s)

/-- R69: `Step`: fetch, decode, and run the class's rule (`run`, which is `exec`). -/
def interpretWith (run : Instr → State → Host.Outcome State Fault Refusal) (s : State) :
    Host.Outcome State Fault Refusal :=
  match fetch s with
  | .ok i => run i s
  | .error e => fetchOverrun e s

end Sys2Proof.Machine
end

