-- ==== Sys2Proof/Machine/Pass.lean ====
section
/-! DEFINITION. A playback pass (spec/42_end_unhandled.md R122): its entry, the one turn of its loop, and where the word
of an opcode-table row is placed for the next turn. -/

namespace Sys2Proof.Machine

/-- R122: the entry of `Interpret()`: `RUN <- Running`, and the Cursor is not written. -/
def beginPass (s : State) : State := startRun s

/-- R122, R141: one turn of the loop `while RUN = Running and FAULT = None: Step`. Once `FAULT` is set no further step is
taken: the overrun is answered again. Once `RUN = Stopped` nothing is left of the pass: nothing changes (log 7). A stream
longer than the Cursor can address is refused (R21, U7). -/
def passTurn (interpret : State → Host.Outcome State Fault Refusal) (s : State) : Host.Outcome State Fault Refusal :=
  if s.stream.fits then
    match s.fault with
    | none =>
      match s.run with
      | .running => interpret s
      | .stopped => .next s
    | some f => .fault (.streamOverrun f.addr s)
  else .refused .streamTooLong

/-- R40, R41: the state with the stream of these bytes. -/
def withStream (bs : List Byte) (s : State) : State := { s with stream := Memory.ofBytes bs }

/-- The bytes of an opcode-table word placed where the next step fetches, and the pass running, so that the next step runs
exactly that instruction (log 8). -/
def placeWord (nbits w : Nat) (s : State) : State :=
  { s with
    stream := s.stream.writeAll s.cursor (tableWordBytes nbits w)
    run := .running
    fault := none }

end Sys2Proof.Machine
end

