-- ==== Sys2Proof/Machine/Step.lean ====
section
/-! DEFINITION. One step of the machine: one turn of the interpreter loop (spec/42_end_unhandled.md R122), in which one
instruction is executed, indivisible (spec/00_scope.md R11). The session around the loop is Machine/Session.lean. -/

namespace Sys2Proof.Machine

/-- R69: `Step` of the Stream Interpreter. -/
def interpretStep (s : State) : Host.Outcome State Fault Refusal := interpretWith exec s

/-- R69, R122: one step of the machine. -/
def step (s : State) : Host.Outcome State Fault Refusal := passTurn interpretStep s

/-- The state with an opcode-table word where the next step fetches (log 8). -/
def State.withFetchWord (s : State) (nbits w : Nat) : State := placeWord nbits w s

end Sys2Proof.Machine
end

