-- ==== Sys2Proof/Machine/Observe.lean ====
section
/-! DEFINITION. What a run is observed to do (spec/00_scope.md R12, R13): the functions of `TRACE` that carry the
document's testable properties, and the verdict on a stalled run (spec/60_exceptions.md R147). None of it is hardware. -/

namespace Sys2Proof.Machine

/-- R13, R81: the seven events of one complete write transaction. -/
def transaction (b : Byte) : List Event :=
  [.we 1, .cs .active, .spi b, .cs .idle, .we 0, .delay Config.unitUs, .we 1]

/-- R13: the byte of the complete write transaction that begins at the head of the events, if one does. -/
def transactionAt : List Event → Option Byte
  | .we v :: .cs .active :: .spi b :: .cs .idle :: .we w :: .delay us :: .we x :: _ =>
    if v = 1 ∧ w = 0 ∧ us = Config.unitUs ∧ x = 1 then some b else none
  | _ => none

/-- R13: `writes(TRACE)`: the bytes of every complete write transaction, in order: of every place at which the seven
events stand one after the other (log 17). -/
def writes : List Event → List Byte
  | [] => []
  | e :: rest => (transactionAt (e :: rest)).toList ++ writes rest

/-- R13: the microseconds one event requests. -/
def Event.requested : Event → Nat
  | .delay us => us
  | .we _ => 0
  | .cs _ => 0
  | .spi _ => 0
  | .busConfig => 0
  | .done => 0

/-- R13: `elapsed(TRACE)`: the sum over every `Delay`. Requested durations, never wall-clock time (R14). -/
def elapsed : List Event → Nat
  | [] => 0
  | e :: rest => e.requested + elapsed rest

/-- R13: `timeline(TRACE)`, `t` microseconds having been requested before the events: each write with the time of its
`WE(0)` event (the transaction requests nothing before that event). -/
def timelineFrom (t : Nat) : List Event → List (Byte × Nat)
  | [] => []
  | e :: rest => ((transactionAt (e :: rest)).toList.map fun b => (b, t)) ++ timelineFrom (t + e.requested) rest

/-- R13: `timeline(TRACE)`. -/
def timeline (tr : List Event) : List (Byte × Nat) := timelineFrom 0 tr

/-- The level the last `WE` event drove, or `v` before any. -/
def lastWe (v : Bit) : List Event → Bit
  | [] => v
  | .we w :: rest => lastWe w rest
  | .cs _ :: rest => lastWe v rest
  | .spi _ :: rest => lastWe v rest
  | .delay _ :: rest => lastWe v rest
  | .busConfig :: rest => lastWe v rest
  | .done :: rest => lastWe v rest

/-- The state the last `CS` event drove, or `c` before any. -/
def lastCs (c : CsState) : List Event → CsState
  | [] => c
  | .cs d :: rest => lastCs d rest
  | .we _ :: rest => lastCs c rest
  | .spi _ :: rest => lastCs c rest
  | .delay _ :: rest => lastCs c rest
  | .busConfig :: rest => lastCs c rest
  | .done :: rest => lastCs c rest

/-- The byte of the last serial transfer, or `b` before any. -/
def lastSpi (b : Byte) : List Event → Byte
  | [] => b
  | .spi c :: rest => lastSpi c rest
  | .we _ :: rest => lastSpi b rest
  | .cs _ :: rest => lastSpi b rest
  | .delay _ :: rest => lastSpi b rest
  | .busConfig :: rest => lastSpi b rest
  | .done :: rest => lastSpi b rest

/-- R69: the next step is a `Step` of the Interpreter: `RUN = Running` and `FAULT = None`. -/
def inPass (s : State) : Bool := s.run == .running && s.fault == none

/-- R147: the verdict `Stall(op, CURSOR)` about a run: the next instruction is an unhandled opcode. Bookkeeping: the
machine itself steps on, and changes nothing. -/
def stallVerdict (s : State) : Option (Byte × Nat) :=
  match inPass s, fetch s with
  | true, .ok (.unhandled op) => some (op, s.cursor)
  | _, _ => none

end Sys2Proof.Machine
end

