-- ==== Sys2Proof/Machine/Phase.lean ====
section
/-! DEFINITION. The decode FSM at phase level (spec/10_state.md R35), with the transient latches of R29 as registers and
the sample timer counting tick by tick (R30). The machine's step (Machine/Step.lean) does not use it: one instruction is
one atomic step (R11, decision D16). It is here so that the atomic step can be proved to be what the phases do. -/

namespace Sys2Proof.Machine

/-- R35: the phases. A phase that blocks on the timer has a second half, in which the counter runs. -/
inductive Phase where
  /-- Read `STREAM[CURSOR]` into `IR`. -/
  | fetch
  | decode
  /-- Advance by 1 to what follows a one-byte wait. -/
  | adv1Wait
  /-- Advance by 1 and read `OPD`. -/
  | operandD
  /-- Advance by 1 and read `LO`. -/
  | operandLo
  /-- Read `HI` and advance by 2. -/
  | operandHi
  /-- The seven events of `SendByte`. -/
  | write
  | advAfterWrite
  /-- Load `DLY`. -/
  | wait
  /-- Count `DLY` to 0. -/
  | waitCount
  /-- `CURSOR <- 0`. -/
  | endReset
  /-- The mute bytes still to be written, one write transaction a phase step. -/
  | endMute (left : List Byte)
  /-- Load `DLY` with the pause. -/
  | endPause
  /-- Count the pause to 0. -/
  | endPauseCount
  | stopped
  deriving DecidableEq, Repr

/-- The machine between two phases: the state of R20 and the latches of R29, 8 bits each. -/
structure PhaseState where
  base  : State
  phase : Phase
  ir    : Byte
  opd   : Byte
  lo    : Byte
  hi    : Byte
  deriving DecidableEq, Repr

/-- R35: from `DECODE`. -/
def phaseAfterDecode (op : Byte) : Phase :=
  match classify op with
  | .waitn _ => .adv1Wait
  | .psgw => .operandD
  | .wait16 => .operandLo
  | .wait735 => .adv1Wait
  | .wait882 => .adv1Wait
  | .endStream => .endReset
  | .unhandled _ => .fetch

/-- R102 to R105: the delay the `WAIT` phase loads, from the latches. (No other class reaches `WAIT`.) -/
def latchedDelay (p : PhaseState) : Nat :=
  match classify p.ir with
  | .waitn k => Config.unitUs * shortWaitUnits k
  | .wait16 => Config.unitUs * countUnits (assemble16 p.lo p.hi)
  | .wait735 => Config.waitAUs
  | .wait882 => Config.waitBUs
  | .psgw => 0
  | .endStream => 0
  | .unhandled _ => 0

/-- R100: the first half of a blocking delay. -/
def beginDelay (us : Nat) (s : State) : State := emit (.delay us) (loadTimer us s)

/-- R42, R141: read a byte of the stream into a latch, or raise `StreamOverrun`. -/
def phaseRead (addr : Nat) (s : State) (use : Byte → PhaseState) : Host.Outcome PhaseState Fault Refusal :=
  match s.stream.read addr with
  | some b => .next (use b)
  | none => .fault (.streamOverrun addr { s with fault := some { addr := addr } })

/-- One tick of the timer, or the phase that follows once the counter is 0. -/
def phaseCount (p : PhaseState) (afterwards : PhaseState) : PhaseState :=
  if p.base.dly = 0 then afterwards else { p with base := tickTimer p.base }

/-- R35: one phase. -/
def phaseStep (p : PhaseState) : Host.Outcome PhaseState Fault Refusal :=
  match p.phase with
  | .fetch => phaseRead p.base.cursor p.base fun b => { p with ir := b, phase := .decode }
  | .decode => .next { p with phase := phaseAfterDecode p.ir }
  | .adv1Wait => .next { p with base := advanceCursor 1 p.base, phase := .wait }
  | .operandD =>
    let s := advanceCursor 1 p.base
    phaseRead s.cursor s fun b => { p with base := s, opd := b, phase := .write }
  | .operandLo =>
    let s := advanceCursor 1 p.base
    phaseRead s.cursor s fun b => { p with base := s, lo := b, phase := .operandHi }
  | .operandHi =>
    phaseRead (p.base.cursor + 1) p.base fun b => { p with base := advanceCursor 2 p.base, hi := b, phase := .wait }
  | .write => .next { p with base := sendByte (dataByte p.opd) p.base, phase := .advAfterWrite }
  | .advAfterWrite => .next { p with base := advanceCursor 1 p.base, phase := .fetch }
  | .wait => .next { p with base := beginDelay (latchedDelay p) p.base, phase := .waitCount }
  | .waitCount => .next (phaseCount p { p with phase := .fetch })
  | .endReset => .next { p with base := setCursor 0 p.base, phase := .endMute Config.muteSeq }
  | .endMute [] => .next { p with phase := .endPause }
  | .endMute (b :: left) => .next { p with base := sendByte b p.base, phase := .endMute left }
  | .endPause => .next { p with base := beginDelay Config.endPauseUs p.base, phase := .endPauseCount }
  | .endPauseCount => .next (phaseCount p { p with base := stopRun p.base, phase := .stopped })
  | .stopped => .next p

/-- So many phases, stopping at a fault. -/
def phaseRun : Nat → PhaseState → Host.Outcome PhaseState Fault Refusal
  | 0, p => .next p
  | n + 1, p =>
    match phaseStep p with
    | .next q => phaseRun n q
    | .fault f => .fault f
    | .refused r => .refused r

/-- An instruction boundary: the next instruction has not been fetched, or the pass has stopped. -/
def PhaseState.atBoundary (p : PhaseState) : Bool := p.phase == .fetch || p.phase == .stopped

end Sys2Proof.Machine
end

