-- ==== Sys2Proof/Machine/Session.lean ====
section
/-! DEFINITION. The session: the one agent (spec/00_scope.md R15) running the Playback Driver sequence `Playback()` line by
line around the machine (spec/70_reset_and_hazards.md R161), and the moves of the host (R16). The state of the machine is
`State`, the record of R20, and the step of a pass is the machine's `step`; what stands beside the record here is only
the agent's place in its program. -/

namespace Sys2Proof.Machine

/-- R161: the line of the sequencer's program that runs next. The first eight are the lines of `Playback()` in order;
`barePass` is a pass started by `Interpret()` alone (decision D14 exposes both entry points). DEDUCED (log 6). -/
inductive Driver where
  /-- `Emit(BusConfig)`. -/
  | configureBus
  /-- `CS <- Idle ; Emit(CS(Idle))`. -/
  | forceCsIdle
  /-- the first `SilenceAllChannels()`. -/
  | initialMute
  /-- `Delay(INIT_SETTLE_US)`. -/
  | settle
  /-- the entry of `Interpret()`. -/
  | enterPass
  /-- inside `Interpret()`, called by `Playback()`; once `RUN = Stopped`, the second `SilenceAllChannels()` is next. -/
  | sessionPass
  /-- `Emit(Done)`. -/
  | signalDone
  /-- nothing left to do until the host makes a move. -/
  | idle
  /-- inside `Interpret()`, called by the host. -/
  | barePass
  deriving DecidableEq, Repr

/-- R15, R161: the machine and the agent that runs the sequence around it. -/
@[ext]
structure Session extends State where
  /-- where the agent stands in its program. -/
  driver : Driver
  deriving DecidableEq, Repr

/-- R160: "Execution after reset begins with the session sequence". -/
def Session.reset : Session where
  toState := State.reset
  driver  := .configureBus

/-! ### The lines of `Playback()` -/

/-- Run a line of the program on the machine, and stand at another. -/
def Session.move (d : Driver) (line : State → State) (s : Session) : Session :=
  { toState := line s.toState, driver := d }

/-- R161: `Emit(BusConfig)`. The event carries no data (the bus parameters have no values in the document). -/
def driverConfigureBus (s : Session) : Session := s.move .forceCsIdle (emit .busConfig)

/-- R161: "force chip-select idle". -/
def driverForceCsIdle (s : Session) : Session := s.move .initialMute (driveCs .idle)

/-- R161: the first `SilenceAllChannels()`. -/
def driverInitialMute (s : Session) : Session := s.move .settle silenceAllChannels

/-- R161: `Delay(INIT_SETTLE_US)`. -/
def driverSettle (s : Session) : Session := s.move .enterPass (delay Config.initSettleUs)

/-- R122: the entry of `Interpret()`. -/
def driverEnterPass (s : Session) : Session := s.move .sessionPass beginPass

/-- R161: the second `SilenceAllChannels()`, reached only once `RUN = Stopped`. -/
def driverFinalMute (s : Session) : Session := s.move .signalDone silenceAllChannels

/-- R161: `Emit(Done)`. -/
def driverSignalDone (s : Session) : Session := s.move .idle (emit .done)

/-- R122: a pass the host started by `Interpret()` returns to the host. -/
def leaveBarePass (s : Session) : Session := s.move .idle id

/-- The session after a step of its machine: the agent stands where it stood. -/
def Session.after (s : Session) : Host.Outcome State Fault Refusal → Host.Outcome Session Fault Refusal
  | .next t => .next { toState := t, driver := s.driver }
  | .fault f => .fault f
  | .refused r => .refused r

/-- R122: inside `Interpret()`: a step of the machine while `RUN = Running`, else what follows the loop. -/
def sessionTurn (afterwards : Session → Session) (s : Session) : Host.Outcome Session Fault Refusal :=
  match s.run with
  | .running => s.after (step s.toState)
  | .stopped => .next (afterwards s)

/-- R161: run the agent's next line. In `idle` nothing is left to do and nothing changes (log 7). -/
def driverLine (s : Session) : Host.Outcome Session Fault Refusal :=
  match s.driver with
  | .configureBus => .next (driverConfigureBus s)
  | .forceCsIdle => .next (driverForceCsIdle s)
  | .initialMute => .next (driverInitialMute s)
  | .settle => .next (driverSettle s)
  | .enterPass => .next (driverEnterPass s)
  | .sessionPass => sessionTurn driverFinalMute s
  | .signalDone => .next (driverSignalDone s)
  | .idle => .next s
  | .barePass => sessionTurn leaveBarePass s

/-- R161: one step of the session: one line of `Playback()`, inside the pass one instruction. R141: once `FAULT` is set no
further step is taken; U7: a stream longer than the Cursor can address is refused. -/
def sessionStep (s : Session) : Host.Outcome Session Fault Refusal :=
  if s.stream.fits then
    match s.fault with
    | none => driverLine s
    | some f => .fault (.streamOverrun f.addr s.toState)
  else .refused .streamTooLong

/-! ### The moves of the host -/

/-- R16: playback is not in progress: a session has not begun, or has ended, or a bare pass has stopped. -/
def awaitsHost (s : Session) : Bool :=
  match s.driver with
  | .configureBus => true
  | .idle => true
  | .barePass => s.run == .stopped
  | .forceCsIdle => false
  | .initialMute => false
  | .settle => false
  | .enterPass => false
  | .sessionPass => false
  | .signalDone => false

/-- R16: "It may not change the stream during playback"; "cannot cancel a pass" (log 12). -/
def hostMove (move : Session → Host.Outcome Session Fault Refusal) (s : Session) :
    Host.Outcome Session Fault Refusal :=
  if awaitsHost s then move s else .refused .playbackInProgress

/-- R16, R41: the host supplies the command stream. -/
def supplyStream (bs : List Byte) (s : Session) : Host.Outcome Session Fault Refusal :=
  hostMove (fun s => if bs.length ≤ Config.maxStreamLength then .next (s.move s.driver (withStream bs))
    else .refused .streamTooLong) s

/-- R161: the host starts a session, `Playback()`. -/
def startSession (s : Session) : Host.Outcome Session Fault Refusal :=
  hostMove (fun s => .next (s.move .configureBus id)) s

/-- R122, decision D14: the host starts one pass, `Interpret()`. -/
def startPass (s : Session) : Host.Outcome Session Fault Refusal :=
  hostMove (fun s => .next (s.move .barePass beginPass)) s

/-- R146, R160: the host resets the block; the stream it supplied stays. -/
def hostReset (s : Session) : Session := { Session.reset with stream := s.stream }

end Sys2Proof.Machine
end

