-- ==== Sys2Proof/Safety.lean ====
section
/-! DEFINITION. The terms claims about the machine use: when a `Step` is taken, what holds at every instruction
boundary, what a disciplined bus looks like, and how the stream alone decides a pass. -/

namespace Sys2Proof.Machine

/-- R69, U7: the next step is a `Step` of the Interpreter, over a stream the Cursor can address. -/
structure Interpreting (s : State) : Prop where
  inPass : inPass s = true
  fits   : s.stream.fits = true

/-- The agent is inside `Interpret()`. -/
def insidePass (s : Session) : Bool := s.driver == .sessionPass || s.driver == .barePass

/-- Nothing more of the session or of the bare pass will be executed. Final: `Stopped` and completed. -/
def isFinal (s : Session) : Bool := s.driver == .idle && s.run == .stopped && s.fault == none

/-- What holds of every state between two steps of a machine whose stream the host supplied: the stream is `L` bytes at
`0 .. L-1` that the Cursor can address (R40, R21), the Cursor never exceeds `L` (R106) and is 0 once `Stopped` (R25), the
pins and the timer are idle (R27, R28, R30), and no overrun has happened (R141). -/
structure BoundaryInv (s : State) : Prop where
  streamContiguous : s.stream.contiguous
  streamFits       : s.stream.fits = true
  cursorInStream   : s.cursor ≤ s.stream.length
  stoppedRestarts  : s.run = .stopped → s.cursor = 0
  writeEnableIdle  : s.we = 1
  chipSelectIdle   : s.cs = .idle
  timerIdle        : s.dly = 0
  noFault          : s.fault = none

/-- The same of a session, and outside `Interpret()` the Cursor is 0 (R34, R122). -/
structure SessionInv (s : Session) : Prop where
  boundary       : BoundaryInv s.toState
  cursorRestarts : insidePass s = false → s.cursor = 0

/-- R166, R167, R168: the traces of a disciplined bus: a byte reaches the PSG only in one whole write transaction, and
between transactions there are only delays, the forced idle chip-select and the driver's two signals. -/
inductive BusTrace : List Event → Prop where
  | empty : BusTrace []
  | write (b : Byte) {tr : List Event} : BusTrace tr → BusTrace (tr ++ transaction b)
  | delay (us : Nat) {tr : List Event} : BusTrace tr → BusTrace (tr ++ [.delay us])
  | csIdle {tr : List Event} : BusTrace tr → BusTrace (tr ++ [.cs .idle])
  | busConfig {tr : List Event} : BusTrace tr → BusTrace (tr ++ [.busConfig])
  | done {tr : List Event} : BusTrace tr → BusTrace (tr ++ [.done])

/-- The environment is what `TRACE` says: the trace is disciplined, the PSG has accepted exactly the written bytes (R32),
and the pins and the shift register hold what was last driven (R27, R28, R31), from the levels `we`, `cs` and `sr` they
had before the trace began. -/
structure BusInv (sr : Byte) (s : State) : Prop where
  disciplined : BusTrace s.trace
  logIsWrites : s.psgLog = writes s.trace
  wePin       : s.we = lastWe 1 s.trace
  csPin       : s.cs = lastCs .idle s.trace
  srOutputs   : s.srOut = lastSpi sr s.trace

/-- The registers that decide what a step does: the Cursor, `RUN`, the stream and `FAULT`. -/
def sameControl (s t : State) : Prop :=
  s.cursor = t.cursor ∧ s.run = t.run ∧ s.stream = t.stream ∧ s.fault = t.fault

/-- So many steps, stopping at the first fault or refusal: the host's run, over any step function. -/
def stepsOf {σ φ ρ : Type} (next : σ → Host.Outcome σ φ ρ) : Nat → σ → Host.Outcome σ φ ρ
  | 0, s => .next s
  | k + 1, s =>
    match next s with
    | .next t => stepsOf next k t
    | .fault f => .fault f
    | .refused r => .refused r

/-- So many steps of the machine. It is the host's `run` of `core` (`runFor_eq_core_run`). -/
abbrev runFor (k : Nat) (s : State) : Host.Outcome State Fault Refusal := stepsOf step k s

/-- So many steps of a session. -/
abbrev sessionFor (k : Nat) (s : Session) : Host.Outcome Session Fault Refusal := stepsOf sessionStep k s

/-- One step leads from one state of the machine to the other: a step of the machine, or of a session around it. -/
def OneStep (s t : State) : Prop :=
  step s = .next t ∨ ∃ p q : Session, p.toState = s ∧ q.toState = t ∧ sessionStep p = .next q

/-! ### What the rules say an instruction emits, in numbers -/

/-- R81: the seven events of `SendByte(b)`. -/
def writeEvents (b : Byte) : List Event :=
  [.we 1, .cs .active, .spi b, .cs .idle, .we 0, .delay 23, .we 1]

/-- R83: the 28 events of `SilenceAllChannels()`. -/
def muteEvents : List Event := writeEvents 0x9F ++ writeEvents 0xBF ++ writeEvents 0xDF ++ writeEvents 0xFF

/-- R83: the four bytes of `SilenceAllChannels()`. -/
def muteBytes : List Byte := [0x9F, 0xBF, 0xDF, 0xFF]

/-- R85, R102 to R105, R120, R121: the events of one instruction. -/
def eventsOf : Instr → List Event
  | .waitn k => [.delay (23 * (k.toNat + 1))]
  | .psgw d => writeEvents d
  | .wait16 n => [.delay (23 * n.toNat)]
  | .wait735 => [.delay 17000]
  | .wait882 => [.delay 20000]
  | .endStream => muteEvents ++ [.delay 2000000]
  | .unhandled _ => []

/-- R22: the Cursor at the end of the instruction's step. -/
def cursorAfter (i : Instr) (c : Nat) : Nat :=
  match i with
  | .waitn _ => c + 1
  | .psgw _ => c + 2
  | .wait16 _ => c + 3
  | .wait735 => c + 1
  | .wait882 => c + 1
  | .endStream => 0
  | .unhandled _ => c

/-! ### Streams and passes -/

/-- R162: the requested microseconds of one instruction. -/
def requestedUs : Instr → Nat
  | .waitn k => 23 * (k.toNat + 1)
  | .psgw _ => 23
  | .wait16 n => 23 * n.toNat
  | .wait735 => 17000
  | .wait882 => 20000
  | .endStream => 2000092
  | .unhandled _ => 0

/-- The sum of `requestedUs`. -/
def totalRequestedUs : List Instr → Nat
  | [] => 0
  | i :: rest => requestedUs i + totalRequestedUs rest

/-- R123: the data byte of a `PSGW`. -/
def dataOf : Instr → List Byte
  | .psgw d => [d]
  | .waitn _ => []
  | .wait16 _ => []
  | .wait735 => []
  | .wait882 => []
  | .endStream => []
  | .unhandled _ => []

/-- R123: the data bytes of the `PSGW` instructions, in stream order. -/
def dataBytes : List Instr → List Byte
  | [] => []
  | i :: rest => dataOf i ++ dataBytes rest

/-- The events of instructions executed one after the other (R48). -/
def eventsOfAll : List Instr → List Event
  | [] => []
  | i :: rest => eventsOf i ++ eventsOfAll rest

/-- R165: handled, and not the end of the stream: an instruction that lets the pass go on. -/
def goesOn (i : Instr) : Bool := i.handled && i != .endStream

/-- R122: the three possible outcomes of a pass. -/
inductive PassOutcome where
  | stopped
  | stall (op : Byte) (cursor : Nat)
  | overrun (addr : Nat)
  deriving DecidableEq, Repr

/-- R165: follow instruction lengths through the stream from the offset `c`; whichever comes first decides the pass: an
`END`, an unhandled opcode, or the end of the stream. The fuel bounds the number of instructions; `L + 1` is always
enough, since every instruction that goes on has at least one byte. -/
def walk (m : Memory) : Nat → Nat → PassOutcome
  | 0, c => .overrun c
  | fuel + 1, c =>
    match decode (fetchBytes m c) with
    | .error e => .overrun (c + e.index)
    | .ok (.endStream, _) => .stopped
    | .ok (.unhandled op, _) => .stall op c
    | .ok (.waitn _, _) => walk m fuel (c + 1)
    | .ok (.psgw _, _) => walk m fuel (c + 2)
    | .ok (.wait16 _, _) => walk m fuel (c + 3)
    | .ok (.wait735, _) => walk m fuel (c + 1)
    | .ok (.wait882, _) => walk m fuel (c + 1)

/-- R122: the outcome of a pass over a stream the Cursor can address, a function of the stream alone. -/
def passOutcome (m : Memory) : PassOutcome := walk m (m.length + 1) 0

/-- R165: the stream is well formed: the Cursor can address it (`L <= 2^CW - 1`), and from offset 0 only handled
instructions, each complete within the stream, lead to an `END`. -/
def wellFormedStream (m : Memory) : Bool := m.fits && passOutcome m == .stopped

end Sys2Proof.Machine
end

