-- ==== Sys2Proof/Certificates/Slice0/Obligations.lean ====
section
/-! DEFINITION. The statements about the machine that the provers are asked for. Each formalises numbered rules of spec/;
the numbers in them are the spec's own, not names of Config. -/

open Sys2Proof Sys2Proof.Machine

/-! ### Encoding -/

/-- R61 to R63: decoding the bytes of a well-formed instruction, whatever follows them, gives the instruction back and
leaves what follows. Every operand takes every value. -/
def Obligations.DecodeRecoversEveryEncodedInstruction : Prop :=
  ∀ (i : Instr) (rest : List Byte), i.wf = true → decode (encode i ++ rest) = .ok (i, rest)

/-- R61 to R65: whatever is decoded is a well-formed instruction, and its encoding is the very bytes it was read from. -/
def Obligations.EncodeReproducesEveryDecodedStream : Prop :=
  ∀ (bs : List Byte) (i : Instr) (rest : List Byte),
    decode bs = .ok (i, rest) → i.wf = true ∧ encode i ++ rest = bs

/-- Sanity: words written out from the encoding tables of R61 and R63, one for each class. -/
def Obligations.WordsOfTheEncodingTablesDecode : Prop :=
  decode [0b01111111] = .ok (.waitn 15, []) ∧
  decode [0b01010000, 0b10001111] = .ok (.psgw 0x8F, []) ∧
  decode [0b01100001, 0b00010000, 0b00100111] = .ok (.wait16 10000, []) ∧
  decode [0b01100010] = .ok (.wait735, []) ∧
  decode [0b01100011] = .ok (.wait882, []) ∧
  decode [0b01100110] = .ok (.endStream, []) ∧
  decode [0b01001111] = .ok (.unhandled 0x4F, [])

/-- R65: the class of each of the 256 opcode bytes; the unhandled ones are the 235 values the rule lists. -/
def Obligations.EveryOpcodeByteHasItsClass : Prop :=
  ∀ op : Byte,
    (op &&& 0xF0 = 0x70 → ∃ k, classify op = .waitn k ∧ k.toNat = (op &&& 0x0F).toNat) ∧
    (op = 0x50 → classify op = .psgw) ∧
    (op = 0x61 → classify op = .wait16) ∧
    (op = 0x62 → classify op = .wait735) ∧
    (op = 0x63 → classify op = .wait882) ∧
    (op = 0x66 → classify op = .endStream) ∧
    (classify op = .unhandled op ↔
      op.toNat ≤ 0x4F ∨ (0x51 ≤ op.toNat ∧ op.toNat ≤ 0x60) ∨ op = 0x64 ∨ op = 0x65 ∨
      (0x67 ≤ op.toNat ∧ op.toNat ≤ 0x6F) ∨ 0x80 ≤ op.toNat)

/-- R66: the opcode byte alone tells the length; an operand byte may take any value and is never decoded as an opcode. -/
def Obligations.OpcodeByteAloneDecidesTheLength : Prop :=
  (∀ op : Byte, instrLength op = if op = 0x50 then 2 else if op = 0x61 then 3 else 1) ∧
  (∀ (op : Byte) (operands rest : List Byte) (i : Instr), decode (op :: operands) = .ok (i, rest) →
    i.length = instrLength op ∧ operands.length + 1 = instrLength op + rest.length) ∧
  (∀ (d : Byte) (rest : List Byte), decode (0x50 :: d :: rest) = .ok (.psgw d, rest)) ∧
  (∀ (lo hi : Byte) (rest : List Byte), ∃ n, decode (0x61 :: lo :: hi :: rest) = .ok (.wait16 n, rest))

/-- R44, R62 (c), R106: the operand of `WAIT16` is `256 * hi + lo`, and every count is recovered from its two bytes. -/
def Obligations.Wait16OperandIsLittleEndian : Prop :=
  (∀ (lo hi : Byte) (rest : List Byte), ∃ n : Half,
    decode (0x61 :: lo :: hi :: rest) = .ok (.wait16 n, rest) ∧ n.toNat = 256 * hi.toNat + lo.toNat) ∧
  (∀ (n : Nat) (rest : List Byte), n ≤ 65535 →
    decode (0x61 :: BitVec.ofNat 8 (n % 256) :: BitVec.ofNat 8 (n / 256) :: rest) =
      .ok (.wait16 (BitVec.ofNat 16 n), rest))

/-! ### The stream -/

/-- R42: a read of a supplied stream gives the byte at the offset, and no byte at an offset `>= L`. -/
def Obligations.StreamReadGivesTheByteAtItsOffset : Prop :=
  ∀ (bs : List Byte) (a : Nat), (Memory.ofBytes bs).read a = bs[a]?

/-- R41, R51: no step writes the stream, of the machine or of a session, neither one that goes on nor one that overruns. -/
def Obligations.NoStepWritesTheStream : Prop :=
  (∀ s t : State, OneStep s t → t.stream = s.stream ∧ ∀ a, t.stream.read a = s.stream.read a) ∧
  (∀ (s t : State) (a : Nat), step s = .fault (.streamOverrun a t) → t.stream = s.stream) ∧
  (∀ (p : Session) (t : State) (a : Nat), sessionStep p = .fault (.streamOverrun a t) → t.stream = p.stream)

/-! ### The instructions: what each one does, and that it completes, from every state -/

/-- The four waits: the Cursor moves past the instruction, one delay is requested, and nothing else changes. -/
def Obligations.WaitsAdvanceTheCursorAndRequestOneDelay : Prop :=
  ∀ s : State,
    (∀ k, exec (.waitn k) s = .next { s with
      cursor := s.cursor + 1, dly := 0, trace := s.trace ++ [.delay (23 * (k.toNat + 1))] }) ∧
    (∀ n, exec (.wait16 n) s = .next { s with
      cursor := s.cursor + 3, dly := 0, trace := s.trace ++ [.delay (23 * n.toNat)] }) ∧
    exec .wait735 s = .next { s with
      cursor := s.cursor + 1, dly := 0, trace := s.trace ++ [.delay 17000] } ∧
    exec .wait882 s = .next { s with
      cursor := s.cursor + 1, dly := 0, trace := s.trace ++ [.delay 20000] }

/-- `PSGW d`: exactly one write transaction of `d`; every other field is as before. -/
def Obligations.PsgwIssuesOneWriteTransaction : Prop :=
  ∀ (d : Byte) (s : State), exec (.psgw d) s = .next { s with
    cursor := s.cursor + 2, we := 1, cs := .idle, dly := 0, srOut := d
    psgLog := s.psgLog ++ [d]
    trace := s.trace ++ [.we 1, .cs .active, .spi d, .cs .idle, .we 0, .delay 23, .we 1] }

/-- `END`: the Cursor is 0, four mute writes, the pause, `Stopped`; every other field is as before. -/
def Obligations.EndMutesPausesAndStops : Prop :=
  ∀ s : State, exec .endStream s = .next { s with
    cursor := 0, run := .stopped, we := 1, cs := .idle, dly := 0, srOut := 0xFF
    psgLog := s.psgLog ++ [0x9F, 0xBF, 0xDF, 0xFF]
    trace := s.trace ++ muteEvents ++ [.delay 2000000] }

/-- `UNHANDLED op` completes and changes nothing. -/
def Obligations.UnhandledChangesNothing : Prop :=
  ∀ (op : Byte) (s : State), exec (.unhandled op) s = .next s

/-! ### The instructions as steps of the machine -/

/-- When the bytes at the Cursor decode to an instruction, a step of a running pass is that instruction's meaning and
nothing else. -/
def Obligations.StepRunsTheDecodedInstruction : Prop :=
  ∀ (s : State) (i : Instr) (rest : List Byte), Interpreting s →
    decode (fetchBytes s.stream s.cursor) = .ok (i, rest) → step s = exec i s

/-- The encoded bytes of a well-formed instruction at the Cursor are what a step runs, whatever bytes follow. -/
def Obligations.EncodedBytesAtTheCursorRun : Prop :=
  ∀ (s : State) (i : Instr), Interpreting s → i.wf = true →
    (∀ (j : Nat) (b : Byte), (encode i)[j]? = some b → s.stream.read (s.cursor + j) = some b) →
    step s = exec i s

/-- R102: each of the sixteen short waits. -/
def Obligations.ShortWaitStep : Prop :=
  ∀ (s : State) (k : BitVec 4), Interpreting s → s.stream.read s.cursor = some (0x70 + k.setWidth 8) →
    step s = .next { s with
      cursor := s.cursor + 1, dly := 0, trace := s.trace ++ [.delay (23 * (k.toNat + 1))] }

/-- R85: the register write, and the overrun at its operand read, before any event. -/
def Obligations.RegisterWriteStep : Prop :=
  ∀ s : State, Interpreting s → s.stream.read s.cursor = some 0x50 →
    (∀ d, s.stream.read (s.cursor + 1) = some d → step s = .next { s with
      cursor := s.cursor + 2, we := 1, cs := .idle, dly := 0, srOut := d
      psgLog := s.psgLog ++ [d]
      trace := s.trace ++ [.we 1, .cs .active, .spi d, .cs .idle, .we 0, .delay 23, .we 1] }) ∧
    (s.stream.read (s.cursor + 1) = none → step s = .fault (.streamOverrun (s.cursor + 1) { s with
      cursor := s.cursor + 1, fault := some { addr := s.cursor + 1 } }))

/-- R103, R144: the 16-bit wait, and the overruns at its two operand reads, the low byte's first. -/
def Obligations.CountedWaitStep : Prop :=
  ∀ s : State, Interpreting s → s.stream.read s.cursor = some 0x61 →
    (∀ lo hi, s.stream.read (s.cursor + 1) = some lo → s.stream.read (s.cursor + 2) = some hi →
      step s = .next { s with
        cursor := s.cursor + 3, dly := 0
        trace := s.trace ++ [.delay (23 * (256 * hi.toNat + lo.toNat))] }) ∧
    (s.stream.read (s.cursor + 1) = none → step s = .fault (.streamOverrun (s.cursor + 1) { s with
      cursor := s.cursor + 1, fault := some { addr := s.cursor + 1 } })) ∧
    (∀ lo, s.stream.read (s.cursor + 1) = some lo → s.stream.read (s.cursor + 2) = none →
      step s = .fault (.streamOverrun (s.cursor + 2) { s with
        cursor := s.cursor + 1, fault := some { addr := s.cursor + 2 } }))

/-- R104, R105: the fixed waits request the millisecond constants. -/
def Obligations.FixedWaitStep : Prop :=
  ∀ s : State, Interpreting s →
    (s.stream.read s.cursor = some 0x62 → step s = .next { s with
      cursor := s.cursor + 1, dly := 0, trace := s.trace ++ [.delay 17000] }) ∧
    (s.stream.read s.cursor = some 0x63 → step s = .next { s with
      cursor := s.cursor + 1, dly := 0, trace := s.trace ++ [.delay 20000] })

/-- R120: the end of the stream, from whatever Cursor: what the step leaves, the time it requests, and that it is the
last `Step` of the pass; no other instruction writes `RUN` or sends the Cursor anywhere but past itself (or, unhandled,
nowhere). -/
def Obligations.EndOfStreamStep : Prop :=
  (∀ s : State, Interpreting s → s.stream.read s.cursor = some 0x66 → ∃ t, step s = .next t ∧
    t = { s with
      cursor := 0, run := .stopped, we := 1, cs := .idle, dly := 0, srOut := 0xFF
      psgLog := s.psgLog ++ [0x9F, 0xBF, 0xDF, 0xFF]
      trace := s.trace ++ muteEvents ++ [.delay 2000000] } ∧
    elapsed t.trace = elapsed s.trace + 2000092 ∧ ¬ Interpreting t) ∧
  (∀ (i : Instr) (s t : State), exec i s = .next t → i ≠ .endStream →
    t.run = s.run ∧ t.cursor = if i.handled then s.cursor + i.length else s.cursor)

/-- R121: an unhandled opcode leaves every piece of state unchanged, and so does every later step. -/
def Obligations.UnhandledOpcodeStallsForEver : Prop :=
  ∀ (s : State) (op : Byte), Interpreting s → s.stream.read s.cursor = some op → handledOpcode op = false →
    step s = .next s ∧ ∀ k : Nat, runFor k s = .next s

/-- R147: a `Step` leaves the state as it was exactly when the verdict is a stall at the Cursor. -/
def Obligations.StallVerdictNamesTheStandstill : Prop :=
  ∀ s : State, Interpreting s →
    (step s = .next s ↔ ∃ op, s.stream.read s.cursor = some op ∧ stallVerdict s = some (op, s.cursor))

/-! ### Frames and whole-machine rules -/

/-- What an instruction leaves unchanged, and what it writes: the Cursor's end value (R21, R22), `RUN` (R25, R26), the
stream (R41), the pins, the outputs, the log and `FAULT` (R27, R28, R31 to R33), and the very events and durations it
emits (R81, R83, R85, R102 to R105, R120, R121). -/
def Obligations.InstructionFrame : Prop :=
  ∀ (i : Instr) (s t : State), exec i s = .next t →
    t.cursor = cursorAfter i s.cursor ∧
    t.stream = s.stream ∧ (∀ a, t.stream.read a = s.stream.read a) ∧
    t.fault = s.fault ∧
    (i ≠ .endStream → t.run = s.run) ∧
    (i ≠ .endStream → (∀ d, i ≠ .psgw d) →
      t.we = s.we ∧ t.cs = s.cs ∧ t.srOut = s.srOut ∧ t.psgLog = s.psgLog) ∧
    t.trace = s.trace ++ eventsOf i ∧ t.psgLog = s.psgLog ++ writes (eventsOf i)

/-- R25: only `END` writes `Stopped` (and the Cursor is then 0), only the start of a pass writes `Running`: no step of the
machine, and of the session only the line `enterPass` (the places of the session are the model's: log 6). -/
def Obligations.OnlyEndStopsAndOnlyAPassStarts : Prop :=
  (∀ s t : State, step s = .next t → t.run ≠ s.run →
    t.run = .stopped ∧ t.cursor = 0 ∧ Interpreting s ∧ s.stream.read s.cursor = some 0x66) ∧
  (∀ p q : Session, sessionStep p = .next q → q.run ≠ p.run →
    (q.run = .stopped ∧ q.cursor = 0 ∧ Interpreting p.toState ∧ insidePass p = true ∧
      p.stream.read p.cursor = some 0x66) ∨
    (q.run = .running ∧ q.cursor = p.cursor ∧ p.driver = .enterPass ∧ q.driver = .sessionPass)) ∧
  (∀ s : State, beginPass s = { s with run := .running })

/-- R21, R22: only an instruction's own advance moves the Cursor, in a step of the machine and of a session. -/
def Obligations.OnlyInstructionsMoveTheCursor : Prop :=
  ∀ s t : State, OneStep s t → t.cursor ≠ s.cursor →
    Interpreting s ∧ ∃ i rest, decode (fetchBytes s.stream s.cursor) = .ok (i, rest) ∧
      t.cursor = cursorAfter i s.cursor

/-- R33, R48, R52: a step, of the machine or of a session, appends to the trace and to what the PSG accepted, and takes
nothing back. -/
def Obligations.TraceAndLogOnlyGrow : Prop :=
  ∀ s t : State, OneStep s t → s.trace.IsPrefix t.trace ∧ s.psgLog.IsPrefix t.psgLog

/-- R106: every delay a step requests, of the machine or of a session, fits the timer: at most 2000000, below `2^21`. -/
def Obligations.EveryRequestedDelayFitsTheTimer : Prop :=
  ∀ s t : State, OneStep s t → ∃ events, t.trace = s.trace ++ events ∧
    ∀ us, Event.delay us ∈ events → us ≤ 2000000 ∧ us < 2 ^ 21 ∧
      (BitVec.ofNat Config.timerWidth us).toNat = us

/-- R149, R162: the time one instruction requests. -/
def Obligations.InstructionRequestsItsTime : Prop :=
  ∀ (i : Instr) (s t : State), exec i s = .next t →
    elapsed t.trace = elapsed s.trace + requestedUs i

/-- R26, R32, R51: what a step does to the Cursor, to `RUN` and to the outside is decided by the stream and the control
registers alone, and in a session by the agent's place beside them (log 6): no step depends on what was written or waited
before. -/
def Obligations.StepIgnoresThePast : Prop :=
  (∀ s₁ s₂ t₁ : State, sameControl s₁ s₂ → step s₁ = .next t₁ →
    ∃ t₂ events bytes, step s₂ = .next t₂ ∧ sameControl t₁ t₂ ∧
      t₁.trace = s₁.trace ++ events ∧ t₂.trace = s₂.trace ++ events ∧
      t₁.psgLog = s₁.psgLog ++ bytes ∧ t₂.psgLog = s₂.psgLog ++ bytes) ∧
  (∀ p₁ p₂ q₁ : Session, sameControl p₁.toState p₂.toState → p₁.driver = p₂.driver → sessionStep p₁ = .next q₁ →
    ∃ q₂ events bytes, sessionStep p₂ = .next q₂ ∧ sameControl q₁.toState q₂.toState ∧ q₁.driver = q₂.driver ∧
      q₁.trace = p₁.trace ++ events ∧ q₂.trace = p₂.trace ++ events ∧
      q₁.psgLog = p₁.psgLog ++ bytes ∧ q₂.psgLog = p₂.psgLog ++ bytes)

/-- R15, R69, R161: inside `Interpret()` a session does what the machine does, step by step, with the agent standing where
it stood: the agent's place, which is the model's (log 6), decides nothing there. The second clause says it of a whole
pass: every state the machine's run gives is reached by the session, in as many steps while the pass is running, and the
machine's fault is the session's. -/
def Obligations.SessionRunsThePassOfTheMachine : Prop :=
  ∀ p : Session, insidePass p = true → p.run = .running →
    ((∀ t, step p.toState = .next t → sessionStep p = .next { toState := t, driver := p.driver }) ∧
     (∀ f, step p.toState = .fault f ↔ sessionStep p = .fault f) ∧
     (∀ r, step p.toState = .refused r ↔ sessionStep p = .refused r)) ∧
    (∀ (k : Nat) (t : State), runFor k p.toState = .next t →
      ∃ j, j ≤ k ∧ (t.run = .running → j = k) ∧ sessionFor j p = .next { toState := t, driver := p.driver }) ∧
    (∀ (k : Nat) (f : Fault), runFor k p.toState = .fault f → sessionFor k p = .fault f)

/-- R153, U7: a step, of the machine or of a session, is refused exactly when the stream is longer than the Cursor can
address, never for an instruction. (That the step is what refuses such a stream, and the width 32 behind it, are the
model's choice: log 4.) -/
def Obligations.StepRefusesOnlyAnUnaddressableStream : Prop :=
  (∀ (s : State) (r : Refusal), step s = .refused r ↔ r = .streamTooLong ∧ s.stream.fits = false) ∧
  (∀ (p : Session) (r : Refusal), sessionStep p = .refused r ↔ r = .streamTooLong ∧ p.stream.fits = false)

/-! ### The Hardware Writer and the timer -/

/-- R80: the three events of `LatchByte`, and the outputs it leaves. -/
def Obligations.LatchByteFramesOneTransfer : Prop :=
  ∀ (b : Byte) (s : State), latchByte b s = { s with
    cs := .idle, srOut := b, trace := s.trace ++ [.cs .active, .spi b, .cs .idle] }

/-- R81: the seven events of `SendByte`, and the byte the PSG accepts. -/
def Obligations.SendByteIsOneWriteTransaction : Prop :=
  ∀ (b : Byte) (s : State), sendByte b s = { s with
    we := 1, cs := .idle, dly := 0, srOut := b
    psgLog := s.psgLog ++ [b]
    trace := s.trace ++ [.we 1, .cs .active, .spi b, .cs .idle, .we 0, .delay 23, .we 1] }

/-- R83: exactly four writes in the fixed order, whatever the state, each its own timed transaction. -/
def Obligations.SilenceIsFourWritesInOrder : Prop :=
  ∀ s : State, silenceAllChannels s = { s with
    we := 1, cs := .idle, dly := 0, srOut := 0xFF
    psgLog := s.psgLog ++ [0x9F, 0xBF, 0xDF, 0xFF]
    trace := s.trace ++ writeEvents 0x9F ++ writeEvents 0xBF ++ writeEvents 0xDF ++ writeEvents 0xFF }

/-- R100, R101: a delay emits its one event and changes nothing else; `n` units are one delay of the product. -/
def Obligations.DelayIsOneEvent : Prop :=
  (∀ (us : Nat) (s : State), delay us s = { s with dly := 0, trace := s.trace ++ [.delay us] }) ∧
  (∀ (n : Nat) (s : State), delayUnits n s = { s with dly := 0, trace := s.trace ++ [.delay (23 * n)] })

/-- R30: ticking the loaded counter down takes exactly as many ticks as it was loaded with, changes nothing else, and
ends where the atomic delay ends. -/
def Obligations.TickingDownIsTheBlockingDelay : Prop :=
  ∀ s : State,
    tickTimer^[s.dly.toNat] s = drainTimer s ∧
    (∀ j, j < s.dly.toNat → (tickTimer^[j] s).dly ≠ 0) ∧
    (∀ us, us < 2 ^ 32 → (loadTimer us s).dly.toNat = us)

/-! ### The fault -/

/-- R141, R144: when a step overruns, what it changes, and the only places it can happen; and a session overruns only
inside a pass, as the machine does. -/
def Obligations.OverrunHappensOnlyAtAMissingRead : Prop :=
  (∀ (s t : State) (a : Nat), step s = .fault (.streamOverrun a t) → s.fault = none →
    Interpreting s ∧ s.stream.read a = none ∧ t.run = .running ∧
    t = { s with cursor := t.cursor, fault := some { addr := a } } ∧
    ((a = s.cursor ∧ t.cursor = s.cursor) ∨
     (s.stream.read s.cursor = some 0x50 ∧ a = s.cursor + 1 ∧ t.cursor = s.cursor + 1) ∨
     (s.stream.read s.cursor = some 0x61 ∧ a = s.cursor + 1 ∧ t.cursor = s.cursor + 1) ∨
     (s.stream.read s.cursor = some 0x61 ∧ (s.stream.read (s.cursor + 1)).isSome = true ∧
       a = s.cursor + 2 ∧ t.cursor = s.cursor + 1))) ∧
  (∀ (p : Session) (t : State) (a : Nat), sessionStep p = .fault (.streamOverrun a t) → p.fault = none →
    insidePass p = true ∧ step p.toState = .fault (.streamOverrun a t))

/-- R42, R69: the opcode fetch past the end of the stream raises the overrun, and nothing has changed but `FAULT`. -/
def Obligations.FetchPastTheEndOverruns : Prop :=
  ∀ s : State, Interpreting s → s.stream.read s.cursor = none →
    step s = .fault (.streamOverrun s.cursor { s with fault := some { addr := s.cursor } })

/-- R33, R141: once `FAULT` is set no further step is taken, of the machine or of a session around it. -/
def Obligations.AnOverrunIsForEver : Prop :=
  (∀ (s t : State) (a : Nat), step s = .fault (.streamOverrun a t) →
    t.fault = some { addr := a } ∧ ∀ k : Nat, runFor (k + 1) t = .fault (.streamOverrun a t)) ∧
  (∀ (p : Session) (t : State) (a : Nat), sessionStep p = .fault (.streamOverrun a t) →
    t.fault = some { addr := a } ∧
    ∀ (d : Driver) (k : Nat), sessionFor (k + 1) { toState := t, driver := d } = .fault (.streamOverrun a t))

/-- R142: between steps of a machine with a supplied stream, the offset reported is always `L`, also in a session. -/
def Obligations.OverrunReportsTheStreamLength : Prop :=
  (∀ (s t : State) (a : Nat), BoundaryInv s → step s = .fault (.streamOverrun a t) → a = s.stream.length) ∧
  (∀ (p : Session) (t : State) (a : Nat), SessionInv p → sessionStep p = .fault (.streamOverrun a t) →
    a = p.stream.length)

/-! ### Invariants -/

/-- Every step keeps `BoundaryInv`: the stream stays contiguous and addressable, the Cursor stays within it and restarts at 0,
pins and timer are idle between steps. Every step of a session keeps `SessionInv`, which adds that the Cursor is 0 outside
`Interpret()`. (The agent's place in a session is the model's: log 6.) -/
def Obligations.StepKeepsBoundaryInv : Prop :=
  (∀ s t : State, BoundaryInv s → step s = .next t → BoundaryInv t) ∧
  (∀ p q : Session, SessionInv p → sessionStep p = .next q → SessionInv q)

/-- Every step keeps the bus disciplined, the PSG's log equal to `writes(TRACE)`, and the pins as last driven, in the
machine and in a session. -/
def Obligations.StepKeepsBusInv : Prop :=
  (∀ (sr : Byte) (s t : State), BusInv sr s → step s = .next t → BusInv sr t) ∧
  (∀ (sr : Byte) (p q : Session), BusInv sr p.toState → sessionStep p = .next q → BusInv sr q.toState)

/-- The invariants hold after reset, also once a stream has been supplied. -/
def Obligations.ResetHasBothInvariants : Prop :=
  BoundaryInv State.reset ∧ BusInv State.reset.srOut State.reset ∧ SessionInv Session.reset ∧
  ∀ (bs : List Byte) (q : Session), supplyStream bs Session.reset = .next q →
    SessionInv q ∧ BusInv State.reset.srOut q.toState

/-- R166, R167: on a disciplined trace every low pulse of write-enable is one unit long, and every serial transfer is
alone in its frame, with write-enable idle before it and lowered only after the latch. -/
def Obligations.DisciplinedTraceKeepsThePulseContract : Prop :=
  ∀ tr : List Event, BusTrace tr → ∀ i : Nat,
    (tr[i]? = some (.we 0) → tr[i + 1]? = some (.delay 23) ∧ tr[i + 2]? = some (.we 1)) ∧
    (∀ b, tr[i]? = some (.spi b) → ∃ j, i = j + 2 ∧ tr[j]? = some (.we 1) ∧ tr[j + 1]? = some (.cs .active) ∧
      tr[j + 3]? = some (.cs .idle) ∧ tr[j + 4]? = some (.we 0))

/-- R13: a write appended to a disciplined trace is one more write, stamped with the time requested before it. -/
def Obligations.TimelineStampsEachWrite : Prop :=
  ∀ (tr : List Event) (b : Byte), BusTrace tr →
    writes (tr ++ writeEvents b) = writes tr ++ [b] ∧
    timeline (tr ++ writeEvents b) = timeline tr ++ [(b, elapsed tr)] ∧
    elapsed (tr ++ writeEvents b) = elapsed tr + 23

/-! ### Reset, the host and the session -/

/-- R34, R160: the state after reset, every value the rules give. The clause about `RUN` is the model's choice: the rules
give `Running` from the start of a pass on, and the model holds it already at reset (DEDUCED, log 10). -/
def Obligations.ResetPutsTheSpecifiedValues : Prop :=
  State.reset.cursor = 0 ∧ State.reset.run = .running ∧ State.reset.we = 1 ∧ State.reset.cs = .idle ∧
  State.reset.dly = 0 ∧ State.reset.psgLog = [] ∧ State.reset.trace = [] ∧ State.reset.fault = none

/-- R16: while playback is in progress the host can neither change the stream nor start anything; otherwise its moves
complete, and supplying a stream only refuses one the Cursor cannot address. (That a move made at the wrong time is
refused, and the width 32, are the model's choice: log 12 and log 4.) -/
def Obligations.HostMovesWaitForPlayback : Prop :=
  ∀ (p : Session) (bs : List Byte),
    (awaitsHost p = false → supplyStream bs p = .refused .playbackInProgress ∧
      startSession p = .refused .playbackInProgress ∧ startPass p = .refused .playbackInProgress) ∧
    (awaitsHost p = true →
      (bs.length ≤ 2 ^ 32 - 1 → supplyStream bs p = .next { p with stream := Memory.ofBytes bs }) ∧
      (2 ^ 32 - 1 < bs.length → supplyStream bs p = .refused .streamTooLong) ∧
      startSession p = .next { p with driver := .configureBus } ∧
      startPass p = .next { p with run := .running, driver := .barePass }) ∧
    (insidePass p = true → Interpreting p.toState → awaitsHost p = false)

/-- The host's moves keep `SessionInv`, and with it `BoundaryInv`, a reset in the middle of a run included. (The moves are
the model's: log 12.) -/
def Obligations.HostMovesKeepSessionInv : Prop :=
  ∀ (p q : Session) (bs : List Byte), SessionInv p →
    (supplyStream bs p = .next q → SessionInv q) ∧ (startSession p = .next q → SessionInv q) ∧
    (startPass p = .next q → SessionInv q) ∧ SessionInv (hostReset p)

/-- R160, R161: execution after reset begins with the session; its lines before the pass, in order, and after it; a running
pass stays inside the session, so that without `Stopped` the final mute and `Done` never happen. (One line of the sequence
a step, and an idle session that stays as it is, are the model's choice: log 6 and log 7.) -/
def Obligations.SessionSurroundsThePass : Prop :=
  Session.reset.toState = State.reset ∧ Session.reset.driver = .configureBus ∧
  ∀ p : Session, p.stream.fits = true → p.fault = none →
    (p.driver = .configureBus → sessionFor 5 p = .next { p with
      driver := .sessionPass, run := .running, we := 1, cs := .idle, dly := 0, srOut := 0xFF
      psgLog := p.psgLog ++ muteBytes
      trace := p.trace ++ [.busConfig, .cs .idle] ++ muteEvents ++ [.delay 500000] }) ∧
    (p.driver = .sessionPass → p.run = .stopped → ∀ k : Nat, sessionFor (k + 2) p = .next { p with
      driver := .idle, we := 1, cs := .idle, dly := 0, srOut := 0xFF
      psgLog := p.psgLog ++ muteBytes
      trace := p.trace ++ muteEvents ++ [.done] }) ∧
    (p.driver = .sessionPass → p.run = .running → ∀ q, sessionStep p = .next q → q.driver = .sessionPass)

/-- R123: a pass over handled opcodes that reaches an `END` ends in `Stopped` with exactly the state the rule gives, and a
second pass (R122, `beginPass`) appends the same events and writes. The last clause says the second pass of sessions, where
the host starts it once the machine is handed back to it. (When a session hands the machine back and how the second pass is
started there are the model's choice: at once after a bare pass, after the two steps of its last lines inside a session,
log 6; by the host's move `startPass`, log 12 and log 18.) -/
def Obligations.WellFormedPassEndsInStopped : Prop :=
  ∀ (s : State) (is : List Instr) (beyond : List Byte),
    Interpreting s → s.cursor = 0 → (∀ i ∈ is, goesOn i = true) →
    s.stream = Memory.ofBytes (encodeAll is ++ 0x66 :: beyond) →
    ∃ t, runFor (is.length + 1) s = .next t ∧
      t = { s with
        cursor := 0, run := .stopped, we := 1, cs := .idle, dly := 0, srOut := 0xFF
        psgLog := s.psgLog ++ dataBytes is ++ muteBytes
        trace := s.trace ++ eventsOfAll is ++ muteEvents ++ [.delay 2000000] } ∧
      (BusTrace s.trace → writes t.trace = writes s.trace ++ dataBytes is ++ muteBytes) ∧
      (∃ v, runFor (is.length + 1) (beginPass t) = .next v ∧
        v = { t with
          psgLog := t.psgLog ++ dataBytes is ++ muteBytes
          trace := t.trace ++ eventsOfAll is ++ muteEvents ++ [.delay 2000000] } ∧
        (BusTrace s.trace → writes v.trace = writes t.trace ++ dataBytes is ++ muteBytes)) ∧
      (∀ d : Driver, d = .barePass ∨ d = .sessionPass →
        ∃ w : Session, (d = .barePass → w = { toState := t, driver := d }) ∧
          (d = .sessionPass → sessionFor 2 { toState := t, driver := d } = .next w) ∧
          ∃ u v, startPass w = .next u ∧ sessionFor (is.length + 1) u = .next v ∧
            v = { w with
              driver := .barePass
              psgLog := w.psgLog ++ dataBytes is ++ muteBytes
              trace := w.trace ++ eventsOfAll is ++ muteEvents ++ [.delay 2000000] } ∧
            (BusTrace s.trace → writes v.trace = writes w.trace ++ dataBytes is ++ muteBytes))

/-- R161, R162: a whole session over a well-formed stream: every event in order, what the PSG accepts, and the time
requested. (That the session takes eight steps besides its instructions is the model's choice: log 6.) -/
def Obligations.WellFormedSessionPlaysToDone : Prop :=
  ∀ (p : Session) (is : List Instr) (beyond : List Byte),
    p.driver = .configureBus → p.cursor = 0 → p.fault = none → p.stream.fits = true →
    (∀ i ∈ is, goesOn i = true) → p.stream = Memory.ofBytes (encodeAll is ++ 0x66 :: beyond) →
    ∃ q, sessionFor (is.length + 8) p = .next q ∧ isFinal q = true ∧ q.cursor = 0 ∧
      q.trace = p.trace ++ [.busConfig, .cs .idle] ++ muteEvents ++ [.delay 500000] ++ eventsOfAll is ++
        muteEvents ++ [.delay 2000000] ++ muteEvents ++ [.done] ∧
      q.psgLog = p.psgLog ++ muteBytes ++ dataBytes is ++ muteBytes ++ muteBytes ∧
      (BusTrace p.trace →
        writes q.trace = writes p.trace ++ muteBytes ++ dataBytes is ++ muteBytes ++ muteBytes) ∧
      elapsed q.trace = elapsed p.trace + (92 + 500000 + (totalRequestedUs is + 2000092) + 92)

/-- R122, R165: the outcome of a pass is a function of the stream alone: it stops after an `END`, it stands still for
ever at an unhandled opcode, or it overruns at the end of the stream. -/
def Obligations.StreamAloneDecidesThePass : Prop :=
  ∀ s : State, BoundaryInv s → Interpreting s → s.cursor = 0 →
    match passOutcome s.stream with
    | .stopped => ∃ k t, runFor k s = .next t ∧ t.run = .stopped ∧ t.cursor = 0
    | .stall op c => ∃ k t, runFor k s = .next t ∧ Interpreting t ∧ stallVerdict t = some (op, c) ∧
        ∀ j : Nat, runFor (k + j) s = .next t
    | .overrun a => a = s.stream.length ∧ ∃ k t, runFor k s = .fault (.streamOverrun a t)

/-- R165: a pass over a stream ends in `Stopped` exactly when the stream is well formed: the Cursor can address it, and
from offset 0 complete handled instructions lead to an `END`. (That the width of the Cursor is 32 and that a step refuses
a longer stream are the model's choice: log 4.) -/
def Obligations.WellFormedStreamsAreThoseThatStop : Prop :=
  ∀ bs : List Byte,
    (wellFormedStream (Memory.ofBytes bs) = true ↔
      bs.length ≤ 2 ^ 32 - 1 ∧
      ∃ (is : List Instr) (beyond : List Byte), (∀ i ∈ is, goesOn i = true) ∧ bs = encodeAll is ++ 0x66 :: beyond) ∧
    (∀ s : State, s.stream = Memory.ofBytes bs → inPass s = true → s.cursor = 0 →
      (wellFormedStream s.stream = true ↔ ∃ k t, runFor k s = .next t ∧ t.run = .stopped))

/-! ### The phase machine -/

/-- R11, R35: from an instruction boundary the phases reach the next boundary for the first time in exactly the state the
atomic step gives, whatever the latches held before. (How the phases are cut into steps is the model's reading of the
informative rule R35: log 19.) -/
def Obligations.PhasesRefineTheAtomicStep : Prop :=
  ∀ (p : PhaseState) (i : Instr), p.phase = .fetch → fetch p.base = .ok i →
    ∃ n q, phaseRun n p = .next q ∧ 0 < n ∧ q.atBoundary = true ∧ exec i p.base = .next q.base ∧
      (∀ m q', 0 < m → m < n → phaseRun m p = .next q' → q'.atBoundary = false)

/-- R35, R141: where the stream ends inside an instruction, the phases raise the very fault the atomic step raises, with
the Cursor where the pseudocode had left it. (Log 19.) -/
def Obligations.PhasesOverrunAsTheAtomicStep : Prop :=
  ∀ (p : PhaseState), p.phase = .fetch → Interpreting p.base → (∀ i, fetch p.base ≠ .ok i) →
    ∃ n f, phaseRun n p = .fault f ∧ step p.base = .fault f
end

