-- ==== Sys2Proof/Laws/Memory.lean ====
section
/-! SUPPORT. The laws of the stream memory: what a read gives after a write, and that every operation that makes or
changes a memory keeps the canonical form. -/

namespace Sys2Proof.Machine

theorem Memory.read_write_same (m : Memory) (a : Nat) (v : Byte) : (m.write a v).read a = some v := by
  induction m with
  | nil => simp [Memory.write, Memory.read]
  | cons c rest ih =>
    obtain ⟨b, w⟩ := c
    simp only [Memory.write]
    split
    · simp [Memory.read]
    · split
      · simp [Memory.read]
      · rename_i _ hne
        simp [Memory.read, ih, Ne.symm hne]

theorem Memory.read_write_other (m : Memory) (a b : Nat) (v : Byte) (h : b ≠ a) :
    (m.write a v).read b = m.read b := by
  induction m with
  | nil => simp [Memory.write, Memory.read, Ne.symm h]
  | cons c rest ih =>
    obtain ⟨k, w⟩ := c
    simp only [Memory.write]
    split
    · simp [Memory.read, Ne.symm h]
    · split
      · rename_i _ hk
        subst hk
        simp [Memory.read, Ne.symm h]
      · simp [Memory.read, ih]

/-- A write adds at most its own offset to the offsets listed. -/
theorem Memory.mem_write (m : Memory) (a : Nat) (v : Byte) (c : Host.Cell) (h : c ∈ m.write a v) :
    c = (a, v) ∨ c ∈ m := by
  induction m with
  | nil => simpa [Memory.write] using h
  | cons d rest ih =>
    obtain ⟨k, w⟩ := d
    simp only [Memory.write] at h
    split at h
    · simpa using h
    · split at h
      · rcases List.mem_cons.1 h with h | h
        · exact .inl h
        · exact .inr (List.mem_cons_of_mem _ h)
      · rcases List.mem_cons.1 h with h | h
        · exact .inr (h ▸ List.mem_cons_self)
        · exact (ih h).imp_right (List.mem_cons_of_mem _)

theorem Memory.write_wf (m : Memory) (a : Nat) (v : Byte) (h : m.wf) : (m.write a v).wf := by
  induction m with
  | nil => simp [Memory.write]
  | cons c rest ih =>
    obtain ⟨k, w⟩ := c
    obtain ⟨hlow, hrest⟩ := List.pairwise_cons.1 h
    simp only [Memory.write]
    split
    · rename_i hak
      refine List.pairwise_cons.2 ⟨fun d hd => ?_, h⟩
      rcases List.mem_cons.1 hd with rfl | hd
      · exact hak
      · exact Nat.lt_trans hak (hlow d hd)
    · split
      · rename_i _ hk
        subst hk
        exact List.pairwise_cons.2 ⟨hlow, hrest⟩
      · rename_i hle hne
        refine List.pairwise_cons.2 ⟨fun d hd => ?_, ih hrest⟩
        rcases Memory.mem_write rest a v d hd with rfl | hd
        · show k < a
          omega
        · exact hlow d hd

theorem Memory.writeAll_wf (bs : List Byte) (m : Memory) (a : Nat) (h : m.wf) : (m.writeAll a bs).wf := by
  induction bs generalizing m a with
  | nil => exact h
  | cons b rest ih => exact ih _ _ (Memory.write_wf m a b h)

theorem Memory.cellsFrom_offsets (bs : List Byte) (base : Nat) :
    (Memory.cellsFrom base bs).map Prod.fst = List.range' base bs.length := by
  induction bs generalizing base with
  | nil => rfl
  | cons b rest ih => simp [Memory.cellsFrom, ih, List.range'_succ]

@[simp] theorem Memory.cellsFrom_length (bs : List Byte) (base : Nat) :
    (Memory.cellsFrom base bs).length = bs.length := by
  simpa using congrArg List.length (Memory.cellsFrom_offsets bs base)

@[simp] theorem Memory.ofBytes_length (bs : List Byte) : (Memory.ofBytes bs).length = bs.length :=
  Memory.cellsFrom_length bs 0

theorem Memory.ofBytes_contiguous (bs : List Byte) : (Memory.ofBytes bs).contiguous := by
  rw [Memory.contiguous, Memory.ofBytes, Memory.cellsFrom_offsets, Memory.cellsFrom_length, List.range_eq_range']

/-- A contiguous stream is in canonical form. -/
theorem Memory.contiguous_wf (m : Memory) (h : m.contiguous) : m.wf := by
  have hr : (m.map Prod.fst).Pairwise (· < ·) := h ▸ List.pairwise_lt_range
  exact List.pairwise_map.1 hr

theorem Memory.ofBytes_wf (bs : List Byte) : (Memory.ofBytes bs).wf :=
  Memory.contiguous_wf _ (Memory.ofBytes_contiguous bs)

end Sys2Proof.Machine
end

