-- ==== Sys2Proof/Laws/PerInstr.lean ====
section
/-! SUPPORT. The families of statements that are proved one constructor at a time. -/

namespace Sys2Proof.Laws.EncodeLength

/-- R63: an instruction is encoded in as many bytes as the length column says. -/
def Statement (i : Instr) : Prop := (encode i).length = i.length

theorem waitn (k : BitVec 4) : Statement (.waitn k) := rfl
theorem psgw (d : Byte) : Statement (.psgw d) := rfl
theorem wait16 (n : Half) : Statement (.wait16 n) := rfl
theorem wait735 : Statement .wait735 := rfl
theorem wait882 : Statement .wait882 := rfl
theorem endStream : Statement .endStream := rfl
theorem unhandled (op : Byte) : Statement (.unhandled op) := rfl

end Sys2Proof.Laws.EncodeLength
end

