-- ==== Sys2Proof/Laws/Session.lean ====
section
/-! SUPPORT. One lemma per line of the session and per part of it, so that no later proof unfolds a line: what it does to
the machine, and where the agent stands after it. -/

namespace Sys2Proof.Machine

@[simp] theorem reset_toState : Session.reset.toState = State.reset := rfl
@[simp] theorem reset_driver : Session.reset.driver = .configureBus := rfl

@[simp] theorem move_toState (d : Driver) (line : State → State) (s : Session) :
    (s.move d line).toState = line s.toState := rfl
@[simp] theorem move_driver (d : Driver) (line : State → State) (s : Session) : (s.move d line).driver = d := rfl

@[simp] theorem driverConfigureBus_toState (s : Session) : (driverConfigureBus s).toState = emit .busConfig s.toState := rfl
@[simp] theorem driverConfigureBus_driver (s : Session) : (driverConfigureBus s).driver = .forceCsIdle := rfl
@[simp] theorem driverForceCsIdle_toState (s : Session) : (driverForceCsIdle s).toState = driveCs .idle s.toState := rfl
@[simp] theorem driverForceCsIdle_driver (s : Session) : (driverForceCsIdle s).driver = .initialMute := rfl
@[simp] theorem driverInitialMute_toState (s : Session) : (driverInitialMute s).toState = silenceAllChannels s.toState := rfl
@[simp] theorem driverInitialMute_driver (s : Session) : (driverInitialMute s).driver = .settle := rfl
@[simp] theorem driverSettle_toState (s : Session) : (driverSettle s).toState = delay Config.initSettleUs s.toState := rfl
@[simp] theorem driverSettle_driver (s : Session) : (driverSettle s).driver = .enterPass := rfl
@[simp] theorem driverEnterPass_toState (s : Session) : (driverEnterPass s).toState = beginPass s.toState := rfl
@[simp] theorem driverEnterPass_driver (s : Session) : (driverEnterPass s).driver = .sessionPass := rfl
@[simp] theorem driverFinalMute_toState (s : Session) : (driverFinalMute s).toState = silenceAllChannels s.toState := rfl
@[simp] theorem driverFinalMute_driver (s : Session) : (driverFinalMute s).driver = .signalDone := rfl
@[simp] theorem driverSignalDone_toState (s : Session) : (driverSignalDone s).toState = emit .done s.toState := rfl
@[simp] theorem driverSignalDone_driver (s : Session) : (driverSignalDone s).driver = .idle := rfl
@[simp] theorem leaveBarePass_toState (s : Session) : (leaveBarePass s).toState = s.toState := rfl
@[simp] theorem leaveBarePass_driver (s : Session) : (leaveBarePass s).driver = .idle := rfl

@[simp] theorem after_next (s : Session) (t : State) : s.after (.next t) = .next { toState := t, driver := s.driver } := rfl
@[simp] theorem after_fault (s : Session) (f : Fault) : s.after (.fault f) = .fault f := rfl
@[simp] theorem after_refused (s : Session) (r : Refusal) : s.after (.refused r) = .refused r := rfl

@[simp] theorem hostReset_stream (s : Session) : (hostReset s).stream = s.stream := rfl
@[simp] theorem hostReset_driver (s : Session) : (hostReset s).driver = .configureBus := rfl

end Sys2Proof.Machine
end

