-- ==== Sys2Proof/Laws/State.lean ====
section
/-! SUPPORT. One lemma per field of `State` and per update, so that no later proof unfolds a record update: the plain
updates (Cursor, trace, `RUN`, timer, pins) and the operations of the Hardware Writer built from them. -/

namespace Sys2Proof.Machine

/-! ### `setCursor` -/

@[simp] theorem setCursor_cursor (v : Nat) (s : State) : (setCursor v s).cursor = v := rfl
@[simp] theorem setCursor_run (v : Nat) (s : State) : (setCursor v s).run = s.run := rfl
@[simp] theorem setCursor_we (v : Nat) (s : State) : (setCursor v s).we = s.we := rfl
@[simp] theorem setCursor_cs (v : Nat) (s : State) : (setCursor v s).cs = s.cs := rfl
@[simp] theorem setCursor_dly (v : Nat) (s : State) : (setCursor v s).dly = s.dly := rfl
@[simp] theorem setCursor_stream (v : Nat) (s : State) : (setCursor v s).stream = s.stream := rfl
@[simp] theorem setCursor_srOut (v : Nat) (s : State) : (setCursor v s).srOut = s.srOut := rfl
@[simp] theorem setCursor_psgLog (v : Nat) (s : State) : (setCursor v s).psgLog = s.psgLog := rfl
@[simp] theorem setCursor_trace (v : Nat) (s : State) : (setCursor v s).trace = s.trace := rfl
@[simp] theorem setCursor_fault (v : Nat) (s : State) : (setCursor v s).fault = s.fault := rfl

/-! ### `advanceCursor` -/

@[simp] theorem advanceCursor_cursor (n : Nat) (s : State) : (advanceCursor n s).cursor = s.cursor + n := rfl
@[simp] theorem advanceCursor_run (n : Nat) (s : State) : (advanceCursor n s).run = s.run := rfl
@[simp] theorem advanceCursor_we (n : Nat) (s : State) : (advanceCursor n s).we = s.we := rfl
@[simp] theorem advanceCursor_cs (n : Nat) (s : State) : (advanceCursor n s).cs = s.cs := rfl
@[simp] theorem advanceCursor_dly (n : Nat) (s : State) : (advanceCursor n s).dly = s.dly := rfl
@[simp] theorem advanceCursor_stream (n : Nat) (s : State) : (advanceCursor n s).stream = s.stream := rfl
@[simp] theorem advanceCursor_srOut (n : Nat) (s : State) : (advanceCursor n s).srOut = s.srOut := rfl
@[simp] theorem advanceCursor_psgLog (n : Nat) (s : State) : (advanceCursor n s).psgLog = s.psgLog := rfl
@[simp] theorem advanceCursor_trace (n : Nat) (s : State) : (advanceCursor n s).trace = s.trace := rfl
@[simp] theorem advanceCursor_fault (n : Nat) (s : State) : (advanceCursor n s).fault = s.fault := rfl

/-! ### `emit` -/

@[simp] theorem emit_cursor (e : Event) (s : State) : (emit e s).cursor = s.cursor := rfl
@[simp] theorem emit_run (e : Event) (s : State) : (emit e s).run = s.run := rfl
@[simp] theorem emit_we (e : Event) (s : State) : (emit e s).we = s.we := rfl
@[simp] theorem emit_cs (e : Event) (s : State) : (emit e s).cs = s.cs := rfl
@[simp] theorem emit_dly (e : Event) (s : State) : (emit e s).dly = s.dly := rfl
@[simp] theorem emit_stream (e : Event) (s : State) : (emit e s).stream = s.stream := rfl
@[simp] theorem emit_srOut (e : Event) (s : State) : (emit e s).srOut = s.srOut := rfl
@[simp] theorem emit_psgLog (e : Event) (s : State) : (emit e s).psgLog = s.psgLog := rfl
@[simp] theorem emit_trace (e : Event) (s : State) : (emit e s).trace = s.trace ++ [e] := rfl
@[simp] theorem emit_fault (e : Event) (s : State) : (emit e s).fault = s.fault := rfl

/-! ### `setRun` -/

@[simp] theorem setRun_cursor (v : RunState) (s : State) : (setRun v s).cursor = s.cursor := rfl
@[simp] theorem setRun_run (v : RunState) (s : State) : (setRun v s).run = v := rfl
@[simp] theorem setRun_we (v : RunState) (s : State) : (setRun v s).we = s.we := rfl
@[simp] theorem setRun_cs (v : RunState) (s : State) : (setRun v s).cs = s.cs := rfl
@[simp] theorem setRun_dly (v : RunState) (s : State) : (setRun v s).dly = s.dly := rfl
@[simp] theorem setRun_stream (v : RunState) (s : State) : (setRun v s).stream = s.stream := rfl
@[simp] theorem setRun_srOut (v : RunState) (s : State) : (setRun v s).srOut = s.srOut := rfl
@[simp] theorem setRun_psgLog (v : RunState) (s : State) : (setRun v s).psgLog = s.psgLog := rfl
@[simp] theorem setRun_trace (v : RunState) (s : State) : (setRun v s).trace = s.trace := rfl
@[simp] theorem setRun_fault (v : RunState) (s : State) : (setRun v s).fault = s.fault := rfl

/-! ### `stopRun` -/

@[simp] theorem stopRun_cursor (s : State) : (stopRun s).cursor = s.cursor := rfl
@[simp] theorem stopRun_run (s : State) : (stopRun s).run = .stopped := rfl
@[simp] theorem stopRun_we (s : State) : (stopRun s).we = s.we := rfl
@[simp] theorem stopRun_cs (s : State) : (stopRun s).cs = s.cs := rfl
@[simp] theorem stopRun_dly (s : State) : (stopRun s).dly = s.dly := rfl
@[simp] theorem stopRun_stream (s : State) : (stopRun s).stream = s.stream := rfl
@[simp] theorem stopRun_srOut (s : State) : (stopRun s).srOut = s.srOut := rfl
@[simp] theorem stopRun_psgLog (s : State) : (stopRun s).psgLog = s.psgLog := rfl
@[simp] theorem stopRun_trace (s : State) : (stopRun s).trace = s.trace := rfl
@[simp] theorem stopRun_fault (s : State) : (stopRun s).fault = s.fault := rfl

/-! ### `startRun` -/

@[simp] theorem startRun_cursor (s : State) : (startRun s).cursor = s.cursor := rfl
@[simp] theorem startRun_run (s : State) : (startRun s).run = .running := rfl
@[simp] theorem startRun_we (s : State) : (startRun s).we = s.we := rfl
@[simp] theorem startRun_cs (s : State) : (startRun s).cs = s.cs := rfl
@[simp] theorem startRun_dly (s : State) : (startRun s).dly = s.dly := rfl
@[simp] theorem startRun_stream (s : State) : (startRun s).stream = s.stream := rfl
@[simp] theorem startRun_srOut (s : State) : (startRun s).srOut = s.srOut := rfl
@[simp] theorem startRun_psgLog (s : State) : (startRun s).psgLog = s.psgLog := rfl
@[simp] theorem startRun_trace (s : State) : (startRun s).trace = s.trace := rfl
@[simp] theorem startRun_fault (s : State) : (startRun s).fault = s.fault := rfl

/-! ### `beginPass` and `withStream` -/

@[simp] theorem beginPass_cursor (s : State) : (beginPass s).cursor = s.cursor := rfl
@[simp] theorem beginPass_run (s : State) : (beginPass s).run = .running := rfl
@[simp] theorem beginPass_we (s : State) : (beginPass s).we = s.we := rfl
@[simp] theorem beginPass_cs (s : State) : (beginPass s).cs = s.cs := rfl
@[simp] theorem beginPass_dly (s : State) : (beginPass s).dly = s.dly := rfl
@[simp] theorem beginPass_stream (s : State) : (beginPass s).stream = s.stream := rfl
@[simp] theorem beginPass_srOut (s : State) : (beginPass s).srOut = s.srOut := rfl
@[simp] theorem beginPass_psgLog (s : State) : (beginPass s).psgLog = s.psgLog := rfl
@[simp] theorem beginPass_trace (s : State) : (beginPass s).trace = s.trace := rfl
@[simp] theorem beginPass_fault (s : State) : (beginPass s).fault = s.fault := rfl

@[simp] theorem withStream_cursor (bs : List Byte) (s : State) : (withStream bs s).cursor = s.cursor := rfl
@[simp] theorem withStream_run (bs : List Byte) (s : State) : (withStream bs s).run = s.run := rfl
@[simp] theorem withStream_we (bs : List Byte) (s : State) : (withStream bs s).we = s.we := rfl
@[simp] theorem withStream_cs (bs : List Byte) (s : State) : (withStream bs s).cs = s.cs := rfl
@[simp] theorem withStream_dly (bs : List Byte) (s : State) : (withStream bs s).dly = s.dly := rfl
@[simp] theorem withStream_stream (bs : List Byte) (s : State) : (withStream bs s).stream = Memory.ofBytes bs := rfl
@[simp] theorem withStream_srOut (bs : List Byte) (s : State) : (withStream bs s).srOut = s.srOut := rfl
@[simp] theorem withStream_psgLog (bs : List Byte) (s : State) : (withStream bs s).psgLog = s.psgLog := rfl
@[simp] theorem withStream_trace (bs : List Byte) (s : State) : (withStream bs s).trace = s.trace := rfl
@[simp] theorem withStream_fault (bs : List Byte) (s : State) : (withStream bs s).fault = s.fault := rfl

/-! ### `loadTimer` -/

@[simp] theorem loadTimer_cursor (us : Nat) (s : State) : (loadTimer us s).cursor = s.cursor := rfl
@[simp] theorem loadTimer_run (us : Nat) (s : State) : (loadTimer us s).run = s.run := rfl
@[simp] theorem loadTimer_we (us : Nat) (s : State) : (loadTimer us s).we = s.we := rfl
@[simp] theorem loadTimer_cs (us : Nat) (s : State) : (loadTimer us s).cs = s.cs := rfl
@[simp] theorem loadTimer_dly (us : Nat) (s : State) : (loadTimer us s).dly = BitVec.ofNat Config.timerWidth us := rfl
@[simp] theorem loadTimer_stream (us : Nat) (s : State) : (loadTimer us s).stream = s.stream := rfl
@[simp] theorem loadTimer_srOut (us : Nat) (s : State) : (loadTimer us s).srOut = s.srOut := rfl
@[simp] theorem loadTimer_psgLog (us : Nat) (s : State) : (loadTimer us s).psgLog = s.psgLog := rfl
@[simp] theorem loadTimer_trace (us : Nat) (s : State) : (loadTimer us s).trace = s.trace := rfl
@[simp] theorem loadTimer_fault (us : Nat) (s : State) : (loadTimer us s).fault = s.fault := rfl

/-! ### `drainTimer` -/

@[simp] theorem drainTimer_cursor (s : State) : (drainTimer s).cursor = s.cursor := rfl
@[simp] theorem drainTimer_run (s : State) : (drainTimer s).run = s.run := rfl
@[simp] theorem drainTimer_we (s : State) : (drainTimer s).we = s.we := rfl
@[simp] theorem drainTimer_cs (s : State) : (drainTimer s).cs = s.cs := rfl
@[simp] theorem drainTimer_dly (s : State) : (drainTimer s).dly = 0 := rfl
@[simp] theorem drainTimer_stream (s : State) : (drainTimer s).stream = s.stream := rfl
@[simp] theorem drainTimer_srOut (s : State) : (drainTimer s).srOut = s.srOut := rfl
@[simp] theorem drainTimer_psgLog (s : State) : (drainTimer s).psgLog = s.psgLog := rfl
@[simp] theorem drainTimer_trace (s : State) : (drainTimer s).trace = s.trace := rfl
@[simp] theorem drainTimer_fault (s : State) : (drainTimer s).fault = s.fault := rfl

/-! ### `delay` -/

@[simp] theorem delay_cursor (us : Nat) (s : State) : (delay us s).cursor = s.cursor := rfl
@[simp] theorem delay_run (us : Nat) (s : State) : (delay us s).run = s.run := rfl
@[simp] theorem delay_we (us : Nat) (s : State) : (delay us s).we = s.we := rfl
@[simp] theorem delay_cs (us : Nat) (s : State) : (delay us s).cs = s.cs := rfl
@[simp] theorem delay_dly (us : Nat) (s : State) : (delay us s).dly = 0 := rfl
@[simp] theorem delay_stream (us : Nat) (s : State) : (delay us s).stream = s.stream := rfl
@[simp] theorem delay_srOut (us : Nat) (s : State) : (delay us s).srOut = s.srOut := rfl
@[simp] theorem delay_psgLog (us : Nat) (s : State) : (delay us s).psgLog = s.psgLog := rfl
@[simp] theorem delay_trace (us : Nat) (s : State) : (delay us s).trace = s.trace ++ [.delay us] := rfl
@[simp] theorem delay_fault (us : Nat) (s : State) : (delay us s).fault = s.fault := rfl

/-! ### `delayUnits` -/

@[simp] theorem delayUnits_cursor (n : Nat) (s : State) : (delayUnits n s).cursor = s.cursor := rfl
@[simp] theorem delayUnits_run (n : Nat) (s : State) : (delayUnits n s).run = s.run := rfl
@[simp] theorem delayUnits_we (n : Nat) (s : State) : (delayUnits n s).we = s.we := rfl
@[simp] theorem delayUnits_cs (n : Nat) (s : State) : (delayUnits n s).cs = s.cs := rfl
@[simp] theorem delayUnits_dly (n : Nat) (s : State) : (delayUnits n s).dly = 0 := rfl
@[simp] theorem delayUnits_stream (n : Nat) (s : State) : (delayUnits n s).stream = s.stream := rfl
@[simp] theorem delayUnits_srOut (n : Nat) (s : State) : (delayUnits n s).srOut = s.srOut := rfl
@[simp] theorem delayUnits_psgLog (n : Nat) (s : State) : (delayUnits n s).psgLog = s.psgLog := rfl
@[simp] theorem delayUnits_trace (n : Nat) (s : State) : (delayUnits n s).trace = s.trace ++ [.delay (Config.unitUs * n)] := rfl
@[simp] theorem delayUnits_fault (n : Nat) (s : State) : (delayUnits n s).fault = s.fault := rfl

/-! ### `driveWe` -/

@[simp] theorem driveWe_cursor (v : Bit) (s : State) : (driveWe v s).cursor = s.cursor := rfl
@[simp] theorem driveWe_run (v : Bit) (s : State) : (driveWe v s).run = s.run := rfl
@[simp] theorem driveWe_we (v : Bit) (s : State) : (driveWe v s).we = v := rfl
@[simp] theorem driveWe_cs (v : Bit) (s : State) : (driveWe v s).cs = s.cs := rfl
@[simp] theorem driveWe_dly (v : Bit) (s : State) : (driveWe v s).dly = s.dly := rfl
@[simp] theorem driveWe_stream (v : Bit) (s : State) : (driveWe v s).stream = s.stream := rfl
@[simp] theorem driveWe_srOut (v : Bit) (s : State) : (driveWe v s).srOut = s.srOut := rfl
@[simp] theorem driveWe_psgLog (v : Bit) (s : State) : (driveWe v s).psgLog = s.psgLog := rfl
@[simp] theorem driveWe_trace (v : Bit) (s : State) : (driveWe v s).trace = s.trace ++ [.we v] := rfl
@[simp] theorem driveWe_fault (v : Bit) (s : State) : (driveWe v s).fault = s.fault := rfl

/-! ### `driveCs` -/

@[simp] theorem driveCs_cursor (c : CsState) (s : State) : (driveCs c s).cursor = s.cursor := rfl
@[simp] theorem driveCs_run (c : CsState) (s : State) : (driveCs c s).run = s.run := rfl
@[simp] theorem driveCs_we (c : CsState) (s : State) : (driveCs c s).we = s.we := rfl
@[simp] theorem driveCs_cs (c : CsState) (s : State) : (driveCs c s).cs = c := rfl
@[simp] theorem driveCs_dly (c : CsState) (s : State) : (driveCs c s).dly = s.dly := rfl
@[simp] theorem driveCs_stream (c : CsState) (s : State) : (driveCs c s).stream = s.stream := rfl
@[simp] theorem driveCs_srOut (c : CsState) (s : State) : (driveCs c s).srOut = s.srOut := rfl
@[simp] theorem driveCs_psgLog (c : CsState) (s : State) : (driveCs c s).psgLog = s.psgLog := rfl
@[simp] theorem driveCs_trace (c : CsState) (s : State) : (driveCs c s).trace = s.trace ++ [.cs c] := rfl
@[simp] theorem driveCs_fault (c : CsState) (s : State) : (driveCs c s).fault = s.fault := rfl

/-! ### `releaseLatch` -/

@[simp] theorem releaseLatch_cursor (b : Byte) (s : State) : (releaseLatch b s).cursor = s.cursor := rfl
@[simp] theorem releaseLatch_run (b : Byte) (s : State) : (releaseLatch b s).run = s.run := rfl
@[simp] theorem releaseLatch_we (b : Byte) (s : State) : (releaseLatch b s).we = s.we := rfl
@[simp] theorem releaseLatch_cs (b : Byte) (s : State) : (releaseLatch b s).cs = .idle := rfl
@[simp] theorem releaseLatch_dly (b : Byte) (s : State) : (releaseLatch b s).dly = s.dly := rfl
@[simp] theorem releaseLatch_stream (b : Byte) (s : State) : (releaseLatch b s).stream = s.stream := rfl
@[simp] theorem releaseLatch_srOut (b : Byte) (s : State) : (releaseLatch b s).srOut = b := rfl
@[simp] theorem releaseLatch_psgLog (b : Byte) (s : State) : (releaseLatch b s).psgLog = s.psgLog := rfl
@[simp] theorem releaseLatch_trace (b : Byte) (s : State) : (releaseLatch b s).trace = s.trace ++ [.cs .idle] := rfl
@[simp] theorem releaseLatch_fault (b : Byte) (s : State) : (releaseLatch b s).fault = s.fault := rfl

/-! ### `latchByte` -/

@[simp] theorem latchByte_cursor (b : Byte) (s : State) : (latchByte b s).cursor = s.cursor := by simp [latchByte]
@[simp] theorem latchByte_run (b : Byte) (s : State) : (latchByte b s).run = s.run := by simp [latchByte]
@[simp] theorem latchByte_we (b : Byte) (s : State) : (latchByte b s).we = s.we := by simp [latchByte]
@[simp] theorem latchByte_cs (b : Byte) (s : State) : (latchByte b s).cs = .idle := by simp [latchByte]
@[simp] theorem latchByte_dly (b : Byte) (s : State) : (latchByte b s).dly = s.dly := by simp [latchByte]
@[simp] theorem latchByte_stream (b : Byte) (s : State) : (latchByte b s).stream = s.stream := by simp [latchByte]
@[simp] theorem latchByte_srOut (b : Byte) (s : State) : (latchByte b s).srOut = b := by simp [latchByte]
@[simp] theorem latchByte_psgLog (b : Byte) (s : State) : (latchByte b s).psgLog = s.psgLog := by simp [latchByte]
@[simp] theorem latchByte_trace (b : Byte) (s : State) : (latchByte b s).trace = s.trace ++ [.cs .active, .spi b, .cs .idle] := by simp [latchByte]
@[simp] theorem latchByte_fault (b : Byte) (s : State) : (latchByte b s).fault = s.fault := by simp [latchByte]

/-! ### `endPulse` -/

@[simp] theorem endPulse_cursor (s : State) : (endPulse s).cursor = s.cursor := rfl
@[simp] theorem endPulse_run (s : State) : (endPulse s).run = s.run := rfl
@[simp] theorem endPulse_we (s : State) : (endPulse s).we = 1 := rfl
@[simp] theorem endPulse_cs (s : State) : (endPulse s).cs = s.cs := rfl
@[simp] theorem endPulse_dly (s : State) : (endPulse s).dly = s.dly := rfl
@[simp] theorem endPulse_stream (s : State) : (endPulse s).stream = s.stream := rfl
@[simp] theorem endPulse_srOut (s : State) : (endPulse s).srOut = s.srOut := rfl
@[simp] theorem endPulse_psgLog (s : State) : (endPulse s).psgLog = s.psgLog ++ [s.srOut] := rfl
@[simp] theorem endPulse_trace (s : State) : (endPulse s).trace = s.trace ++ [.we 1] := rfl
@[simp] theorem endPulse_fault (s : State) : (endPulse s).fault = s.fault := rfl

/-! ### `sendByte` -/

@[simp] theorem sendByte_cursor (b : Byte) (s : State) : (sendByte b s).cursor = s.cursor := by simp [sendByte]
@[simp] theorem sendByte_run (b : Byte) (s : State) : (sendByte b s).run = s.run := by simp [sendByte]
@[simp] theorem sendByte_we (b : Byte) (s : State) : (sendByte b s).we = 1 := by simp [sendByte]
@[simp] theorem sendByte_cs (b : Byte) (s : State) : (sendByte b s).cs = .idle := by simp [sendByte]
@[simp] theorem sendByte_dly (b : Byte) (s : State) : (sendByte b s).dly = 0 := by simp [sendByte]
@[simp] theorem sendByte_stream (b : Byte) (s : State) : (sendByte b s).stream = s.stream := by simp [sendByte]
@[simp] theorem sendByte_srOut (b : Byte) (s : State) : (sendByte b s).srOut = b := by simp [sendByte]
@[simp] theorem sendByte_psgLog (b : Byte) (s : State) : (sendByte b s).psgLog = s.psgLog ++ [b] := by simp [sendByte]
@[simp] theorem sendByte_trace (b : Byte) (s : State) : (sendByte b s).trace = s.trace ++ transaction b := by simp [sendByte, transaction]
@[simp] theorem sendByte_fault (b : Byte) (s : State) : (sendByte b s).fault = s.fault := by simp [sendByte]

/-! ### `sendAll` -/

@[simp] theorem sendAll_cursor (bs : List Byte) (s : State) : (sendAll bs s).cursor = s.cursor := by
  induction bs generalizing s with
  | nil => rfl
  | cons b rest ih => simp [sendAll, ih]

@[simp] theorem sendAll_run (bs : List Byte) (s : State) : (sendAll bs s).run = s.run := by
  induction bs generalizing s with
  | nil => rfl
  | cons b rest ih => simp [sendAll, ih]

@[simp] theorem sendAll_stream (bs : List Byte) (s : State) : (sendAll bs s).stream = s.stream := by
  induction bs generalizing s with
  | nil => rfl
  | cons b rest ih => simp [sendAll, ih]

@[simp] theorem sendAll_fault (bs : List Byte) (s : State) : (sendAll bs s).fault = s.fault := by
  induction bs generalizing s with
  | nil => rfl
  | cons b rest ih => simp [sendAll, ih]

@[simp] theorem sendAll_psgLog (bs : List Byte) (s : State) : (sendAll bs s).psgLog = s.psgLog ++ bs := by
  induction bs generalizing s with
  | nil => simp [sendAll]
  | cons b rest ih => simp [sendAll, ih]

@[simp] theorem sendAll_trace (bs : List Byte) (s : State) :
    (sendAll bs s).trace = s.trace ++ bs.flatMap transaction := by
  induction bs generalizing s with
  | nil => simp [sendAll]
  | cons b rest ih => simp [sendAll, ih]

/-! ### `silenceAllChannels` -/

@[simp] theorem silenceAllChannels_cursor (s : State) : (silenceAllChannels s).cursor = s.cursor := by simp [silenceAllChannels]
@[simp] theorem silenceAllChannels_run (s : State) : (silenceAllChannels s).run = s.run := by simp [silenceAllChannels]
@[simp] theorem silenceAllChannels_we (s : State) : (silenceAllChannels s).we = 1 := by
  simp [silenceAllChannels, sendAll, Config.muteSeq]
@[simp] theorem silenceAllChannels_cs (s : State) : (silenceAllChannels s).cs = .idle := by
  simp [silenceAllChannels, sendAll, Config.muteSeq]
@[simp] theorem silenceAllChannels_dly (s : State) : (silenceAllChannels s).dly = 0 := by
  simp [silenceAllChannels, sendAll, Config.muteSeq]
@[simp] theorem silenceAllChannels_stream (s : State) : (silenceAllChannels s).stream = s.stream := by simp [silenceAllChannels]
@[simp] theorem silenceAllChannels_srOut (s : State) : (silenceAllChannels s).srOut = 0xFF := by
  simp [silenceAllChannels, sendAll, Config.muteSeq]
@[simp] theorem silenceAllChannels_psgLog (s : State) : (silenceAllChannels s).psgLog = s.psgLog ++ Config.muteSeq := by
  simp [silenceAllChannels, sendAll, Config.muteSeq]
@[simp] theorem silenceAllChannels_trace (s : State) : (silenceAllChannels s).trace = s.trace ++ Config.muteSeq.flatMap transaction := by
  simp [silenceAllChannels, sendAll, Config.muteSeq]
@[simp] theorem silenceAllChannels_fault (s : State) : (silenceAllChannels s).fault = s.fault := by simp [silenceAllChannels]

end Sys2Proof.Machine
end

