-- ==== Sys2Proof/Laws/Step.lean ====
section
/-! SUPPORT. What one step can do, said once for the machine and once for the session: later proofs take the cases from
here and do not unfold the step. Then runs of several steps, once for every step function. -/

namespace Sys2Proof.Machine

/-! ### The machine -/

/-- The next states of a step: the same state once the pass has stopped, else that of one instruction. -/
theorem step_next_cases {s t : State} (h : step s = .next t) :
    s.stream.fits = true ∧ s.fault = none ∧
    ((s.run = .stopped ∧ t = s) ∨
     (s.run = .running ∧ ∃ i, fetch s = .ok i ∧ exec i s = .next t)) := by
  unfold step passTurn at h
  split at h
  · rename_i hfits
    split at h
    · rename_i hfault
      refine ⟨hfits, hfault, ?_⟩
      split at h
      · rename_i hrun
        refine .inr ⟨hrun, ?_⟩
        unfold interpretStep interpretWith at h
        split at h
        · rename_i i hi
          exact ⟨i, hi, h⟩
        · cases h
      · rename_i hrun
        exact .inl ⟨hrun, (Host.Outcome.next.inj h).symm⟩
    · cases h
  · cases h

/-- Inside a running pass a step is the interpreter's. -/
theorem step_of_interpreting {s : State} (h : Interpreting s) : step s = interpretStep s := by
  obtain ⟨hpass, hfits⟩ := h
  simp only [inPass, Bool.and_eq_true, beq_iff_eq] at hpass
  simp [step, passTurn, hfits, hpass]

/-! ### The session -/

/-- Inside a running pass a step of the session is the machine's, and the agent stands where it stood. -/
theorem sessionStep_of_insidePass {s : Session} (hd : insidePass s = true) (hrun : s.run = .running) :
    sessionStep s = s.after (step s.toState) := by
  simp only [insidePass, Bool.or_eq_true, beq_iff_eq] at hd
  unfold sessionStep
  split
  · rename_i hfits
    split
    · rcases hd with hd | hd <;> simp [driverLine, hd, sessionTurn, hrun]
    · rename_i f hfault
      simp [step, passTurn, hfits, hfault, Session.after]
  · rename_i hfits
    simp [step, passTurn, hfits, Session.after]

/-- The next sessions of a step: one line of the program, or inside a running pass one instruction. -/
theorem session_next_cases {s t : Session} (h : sessionStep s = .next t) :
    s.stream.fits = true ∧ s.fault = none ∧
    ((s.driver = .configureBus ∧ t = driverConfigureBus s) ∨
     (s.driver = .forceCsIdle ∧ t = driverForceCsIdle s) ∨
     (s.driver = .initialMute ∧ t = driverInitialMute s) ∨
     (s.driver = .settle ∧ t = driverSettle s) ∨
     (s.driver = .enterPass ∧ t = driverEnterPass s) ∨
     (s.driver = .sessionPass ∧ s.run = .stopped ∧ t = driverFinalMute s) ∨
     (s.driver = .signalDone ∧ t = driverSignalDone s) ∨
     (s.driver = .idle ∧ t = s) ∨
     (s.driver = .barePass ∧ s.run = .stopped ∧ t = leaveBarePass s) ∨
     (insidePass s = true ∧ s.run = .running ∧ t.driver = s.driver ∧
       ∃ i, fetch s.toState = .ok i ∧ exec i s.toState = .next t.toState)) := by
  unfold sessionStep at h
  split at h
  · rename_i hfits
    split at h
    · rename_i hfault
      refine ⟨hfits, hfault, ?_⟩
      have turn : ∀ {afterwards : Session → Session}, sessionTurn afterwards s = .next t →
          (s.run = .stopped ∧ t = afterwards s) ∨
          (s.run = .running ∧ t.driver = s.driver ∧
            ∃ i, fetch s.toState = .ok i ∧ exec i s.toState = .next t.toState) := by
        intro afterwards hturn
        unfold sessionTurn at hturn
        split at hturn
        · rename_i hrun
          cases hs : step s.toState with
          | next u =>
            rw [hs] at hturn
            obtain rfl := Host.Outcome.next.inj hturn
            obtain ⟨-, -, ⟨hstop, -⟩ | ⟨-, hi⟩⟩ := step_next_cases hs
            · rw [hstop] at hrun
              cases hrun
            · exact .inr ⟨hrun, rfl, hi⟩
          | fault f =>
            rw [hs] at hturn
            cases hturn
          | refused r =>
            rw [hs] at hturn
            cases hturn
        · rename_i hrun
          exact .inl ⟨hrun, (Host.Outcome.next.inj hturn).symm⟩
      unfold driverLine at h
      split at h
      case h_6 hd => rcases turn h with h | h <;> simp [hd, h, insidePass]
      case h_9 hd => rcases turn h with h | h <;> simp [hd, h, insidePass]
      all_goals rename_i hd; simp [hd, (Host.Outcome.next.inj h).symm]
    · cases h
  · cases h

/-! ### Runs of several steps -/

section Runs

variable {σ φ ρ : Type} {next : σ → Host.Outcome σ φ ρ} {s t : σ}

@[simp] theorem stepsOf_zero : stepsOf next 0 s = .next s := rfl

theorem stepsOf_next (h : next s = .next t) (k : Nat) : stepsOf next (k + 1) s = stepsOf next k t := by
  simp [stepsOf, h]

theorem stepsOf_fault {f : φ} (h : next s = .fault f) (k : Nat) : stepsOf next (k + 1) s = .fault f := by
  simp [stepsOf, h]

theorem stepsOf_refused {r : ρ} (h : next s = .refused r) (k : Nat) : stepsOf next (k + 1) s = .refused r := by
  simp [stepsOf, h]

/-- A run is cut anywhere. -/
theorem stepsOf_add (m n : Nat) (h : stepsOf next m s = .next t) : stepsOf next (m + n) s = stepsOf next n t := by
  induction m generalizing s with
  | zero =>
    obtain rfl := Host.Outcome.next.inj h
    rw [Nat.zero_add]
  | succ m ih =>
    cases hs : next s with
    | next u =>
      rw [stepsOf_next hs] at h
      rw [Nat.add_right_comm, stepsOf_next hs, ih h]
    | fault f =>
      rw [stepsOf_fault hs] at h
      cases h
    | refused r =>
      rw [stepsOf_refused hs] at h
      cases h

/-- A state that a step leaves as it is stays so for ever. -/
theorem stepsOf_fixed (h : next s = .next s) (k : Nat) : stepsOf next k s = .next s := by
  induction k with
  | zero => rfl
  | succ k ih => rw [stepsOf_next h, ih]

end Runs

@[simp] theorem runFor_zero (s : State) : runFor 0 s = .next s := rfl

theorem runFor_next {s t : State} (h : step s = .next t) (k : Nat) : runFor (k + 1) s = runFor k t := stepsOf_next h k

theorem runFor_fault {s : State} {f : Fault} (h : step s = .fault f) (k : Nat) : runFor (k + 1) s = .fault f :=
  stepsOf_fault h k

theorem runFor_refused {s : State} {r : Refusal} (h : step s = .refused r) (k : Nat) :
    runFor (k + 1) s = .refused r := stepsOf_refused h k

theorem runFor_add (m n : Nat) {s t : State} (h : runFor m s = .next t) : runFor (m + n) s = runFor n t := stepsOf_add m n h

theorem runFor_fixed {s : State} (h : step s = .next s) (k : Nat) : runFor k s = .next s := stepsOf_fixed h k

@[simp] theorem sessionFor_zero (s : Session) : sessionFor 0 s = .next s := rfl

theorem sessionFor_next {s t : Session} (h : sessionStep s = .next t) (k : Nat) : sessionFor (k + 1) s = sessionFor k t := stepsOf_next h k

theorem sessionFor_fault {s : Session} {f : Fault} (h : sessionStep s = .fault f) (k : Nat) : sessionFor (k + 1) s = .fault f :=
  stepsOf_fault h k

theorem sessionFor_refused {s : Session} {r : Refusal} (h : sessionStep s = .refused r) (k : Nat) :
    sessionFor (k + 1) s = .refused r := stepsOf_refused h k

theorem sessionFor_add (m n : Nat) {s t : Session} (h : sessionFor m s = .next t) : sessionFor (m + n) s = sessionFor n t := stepsOf_add m n h

theorem sessionFor_fixed {s : Session} (h : sessionStep s = .next s) (k : Nat) : sessionFor k s = .next s := stepsOf_fixed h k

theorem coreRun_next (M : Host.Core) {s t : M.State} (h : M.step s = .next t) (k : Nat) :
    M.run (k + 1) s = M.run k t := by
  simp [Host.Core.run, h]

theorem coreRun_fault (M : Host.Core) {s : M.State} {f : M.Fault} (h : M.step s = .fault f) (k : Nat) :
    M.run (k + 1) s = .fault f := by
  simp [Host.Core.run, h]

theorem coreRun_refused (M : Host.Core) {s : M.State} {r : M.Refusal} (h : M.step s = .refused r) (k : Nat) :
    M.run (k + 1) s = .refused r := by
  simp [Host.Core.run, h]

/-- The run the statements speak of is the host's run of the machine. -/
theorem runFor_eq_core_run (k : Nat) (s : State) : runFor k s = core.run k s := by
  induction k generalizing s with
  | zero => rfl
  | succ k ih =>
    cases hs : step s with
    | next t => exact (runFor_next hs k).trans ((ih t).trans (coreRun_next core hs k).symm)
    | fault f => exact (runFor_fault hs k).trans (coreRun_fault core hs k).symm
    | refused r => exact (runFor_refused hs k).trans (coreRun_refused core hs k).symm

end Sys2Proof.Machine
end

