-- ==== Sys2Proof/Tests/Slice0.lean ====
section
/-! SUPPORT. The model's own tests: ill-formed terms that WellFormed refuses, words written out from the spec's encodings,
one step per instruction with the results of spec/95_test_vectors.md (S, T and P numbers), and for every statement of
Obligations.lean that has hypotheses a concrete state and operands that meet them. -/

open Sys2Proof Sys2Proof.Machine

namespace Sys2Proof.Tests

/-- The outcome is a next state with this property. -/
def nextHas (p : State → Bool) : Host.Outcome State Fault Refusal → Bool
  | .next s => p s
  | .fault _ => false
  | .refused _ => false

/-- The outcome is the overrun at this offset, leaving a state with this property. -/
def overrunHas (addr : Nat) (p : State → Bool) : Host.Outcome State Fault Refusal → Bool
  | .next _ => false
  | .fault (.streamOverrun a t) => a == addr && p t
  | .refused _ => false

/-- Reset, with a stream of these bytes and this Cursor (the start of most test vectors). -/
def playing (bs : List Byte) (c : Nat) : State :=
  { State.reset with stream := Memory.ofBytes bs, cursor := c }

/-- The same machine in a session, the agent standing here. -/
def playingAt (d : Driver) (bs : List Byte) (c : Nat) : Session :=
  { toState := playing bs c, driver := d }

/-- The outcome of a session's step is a next session with this property. -/
def sessionHas (p : Session → Bool) : Host.Outcome Session Fault Refusal → Bool
  | .next s => p s
  | .fault _ => false
  | .refused _ => false

/-! ### WellFormed: each check refuses an ill-formed term -/

theorem test_wf_refuses_unhandled_WAITN_opcodes :
    (Instr.unhandled 0x70).wf = false ∧ (Instr.unhandled 0x7F).wf = false := by decide
theorem test_wf_refuses_unhandled_PSGW_opcode : (Instr.unhandled 0x50).wf = false := by decide
theorem test_wf_refuses_unhandled_WAIT16_opcode : (Instr.unhandled 0x61).wf = false := by decide
theorem test_wf_refuses_unhandled_WAIT735_opcode : (Instr.unhandled 0x62).wf = false := by decide
theorem test_wf_refuses_unhandled_WAIT882_opcode : (Instr.unhandled 0x63).wf = false := by decide
theorem test_wf_refuses_unhandled_END_opcode : (Instr.unhandled 0x66).wf = false := by decide
theorem test_wf_accepts_the_neighbours :
    [0x4F, 0x51, 0x60, 0x64, 0x65, 0x67, 0x6F, 0x80].all (fun v => (Instr.unhandled v).wf) = true := by decide

/-! ### Decoding: words written out bit by bit from R61 and R63 -/

theorem test_decode_WAITN_word : decode [0b01110000, 0x66] = .ok (.waitn 0, [0x66]) := rfl
theorem test_decode_PSGW_word : decode [0b01010000, 0b01100110, 0x66] = .ok (.psgw 0x66, [0x66]) := rfl
theorem test_decode_WAIT16_word : decode [0b01100001, 0b00110100, 0b00010010] = .ok (.wait16 0x1234, []) := rfl
theorem test_decode_WAIT735_word : decode [0b01100010] = .ok (.wait735, []) := rfl
theorem test_decode_WAIT882_word : decode [0b01100011] = .ok (.wait882, []) := rfl
theorem test_decode_END_word : decode [0b01100110] = .ok (.endStream, []) := rfl
theorem test_decode_UNHANDLED_words :
    decode [0b01101111] = .ok (.unhandled 0x6F, []) ∧ decode [0b10000000] = .ok (.unhandled 0x80, []) ∧
    decode [0b01010001, 0x2A] = .ok (.unhandled 0x51, [0x2A]) := ⟨rfl, rfl, rfl⟩

/-- R142: each truncation is rejected by its name. -/
theorem test_decode_names_what_is_missing :
    decode [] = .error .noOpcode ∧ decode [0x50] = .error .noData ∧ decode [0x61] = .error .noLow ∧
    decode [0x61, 0x10] = .error .noHigh := ⟨rfl, rfl, rfl, rfl⟩

/-- The assembly of P1 (spec/95_test_vectors.md, Part 3). -/
theorem test_encode_P1 :
    encodeAll [.psgw 0x8E, .psgw 0x0F, .psgw 0x90, .wait735, .psgw 0x9F, .wait16 882, .waitn 0, .endStream] =
      [0x50, 0x8E, 0x50, 0x0F, 0x50, 0x90, 0x62, 0x50, 0x9F, 0x61, 0x72, 0x03, 0x70, 0x66] := by decide

/-- R70: every opcode byte is taken by exactly one row of the opcode table, and the row says of it what the decoder
does. -/
theorem test_opcode_table_is_the_decoder :
    ∀ op : Byte, (opcodeTable.filter (·.takes op)).map (fun r => (r.mnemonic, r.length)) =
      [((classify op).mnemonic, instrLength op)] := by decide

/-- T92: 16 short waits, 5 single opcodes, 235 unhandled values. -/
theorem test_opcode_count :
    ((List.range 256).filter fun v => handledOpcode (BitVec.ofNat 8 v)).length = 21 := by decide

theorem test_table_words_decode :
    decodeTableWord 8 0x75 = some (.waitn 5) ∧ decodeTableWord 16 0x6650 = some (.psgw 0x66) ∧
    decodeTableWord 24 0x271061 = some (.wait16 10000) ∧ decodeTableWord 8 0x50 = some (.psgw 0) ∧
    decodeTableWord 8 0x66 = some .endStream ∧ decodeTableWord 8 0xFF = some (.unhandled 0xFF) := by decide

/-! ### One step of each instruction -/

/-- T23: a step may start at any Cursor. -/
theorem test_WAITN_T23 :
    nextHas (fun t => t.trace == [.delay 138] && t.cursor == 3 && t.run == .running)
      (step (playing [0x66, 0x00, 0x75] 2)) = true := by decide

/-- T20, T21: `k = 0` waits one unit, `k = 15` sixteen. -/
theorem test_WAITN_T20_T21 :
    nextHas (fun t => t.trace == [.delay 23]) (step (playing [0x70] 0)) = true ∧
    nextHas (fun t => t.trace == [.delay 368]) (step (playing [0x7F] 0)) = true := by decide

/-- T12: the operand `0x66` is data, not `END`. -/
theorem test_PSGW_T12 :
    nextHas (fun t => t.trace == writeEvents 0x66 && t.psgLog == [0x66] && t.srOut == 0x66 && t.cursor == 2 &&
      t.run == .running) (step (playing [0x50, 0x66, 0x66] 0)) = true := by decide

/-- T14: the overrun at the operand read, before any event. -/
theorem test_PSGW_T14 :
    overrunHas 2 (fun t => t.cursor == 2 && t.run == .running && t.trace == [] && t.psgLog == [] &&
      t.fault == some { addr := 2 }) (step (playing [0x70, 0x50] 1)) = true := by decide

/-- T36: the low byte comes first. -/
theorem test_WAIT16_T36 :
    nextHas (fun t => t.trace == [.delay 107180] && t.cursor == 3) (step (playing [0x61, 0x34, 0x12] 0)) = true := by
  decide

/-- T39: the overrun at the high byte, with the Cursor advanced by 1. -/
theorem test_WAIT16_T39 :
    overrunHas 2 (fun t => t.cursor == 1 && t.trace == []) (step (playing [0x61, 0x10] 0)) = true := by decide

/-- T45: 17000 microseconds, not 735 units. -/
theorem test_WAIT735_T45 :
    nextHas (fun t => t.trace == [.delay 17000] && t.cursor == 1) (step (playing [0x62] 0)) = true := by decide

/-- T46, S8: 20000 microseconds, not 882 units. -/
theorem test_WAIT882_T46 :
    nextHas (fun t => t.trace == [.delay 20000] && t.cursor == 2) (step (playing [0x62, 0x63] 1)) = true := by decide

/-- T51: the Cursor after `END` is 0, not 4. -/
theorem test_END_T51 :
    nextHas (fun t => t.cursor == 0 && t.run == .stopped && t.srOut == 0xFF && t.psgLog == [0x9F, 0xBF, 0xDF, 0xFF] &&
      t.trace.length == 29 && elapsed t.trace == 2000092) (step (playing [0x70, 0x70, 0x70, 0x66] 3)) = true := by decide

/-- T60: the step leaves every piece of state unchanged; the verdict is `Stall(0x4F, 0)`. -/
theorem test_UNHANDLED_T60 :
    nextHas (fun t => t == playing [0x4F, 0x66] 0) (step (playing [0x4F, 0x66] 0)) = true ∧
    stallVerdict (playing [0x4F, 0x66] 0) = some (0x4F, 0) := by decide

/-- T70: an empty stream overruns at the first fetch. -/
theorem test_empty_stream_T70 :
    overrunHas 0 (fun t => t.trace == [] && t.cursor == 0 && t.run == .running) (step (playing [] 0)) = true := by decide

/-! ### The session, the host's interface and the observations -/

/-- T97: the first event is `BusConfig`. -/
theorem test_session_begins_with_BusConfig :
    sessionHas (fun t => t.trace == [.busConfig] && t.driver == .forceCsIdle) (sessionStep Session.reset) = true := by
  decide

/-- T70: the machine itself begins with the fetch at offset 0. -/
theorem test_reset_step_fetches_at_0 :
    overrunHas 0 (fun t => t.trace == []) (step State.reset) = true := by decide

/-- A placed word is the first instruction a step runs after reset. -/
theorem test_placed_word_runs :
    nextHas (fun t => t.psgLog == [0x8F] && t.cursor == 2) (step (State.reset.withFetchWord 16 0x8F50)) = true ∧
    nextHas (fun t => t.run == .stopped) (step (State.reset.withFetchWord 8 0x66)) = true := by decide

/-- T4 and R13: two writes of one byte are two writes, 23 microseconds apart. -/
theorem test_observations_T4 :
    writes (writeEvents 0xA5 ++ writeEvents 0xA5) = [0xA5, 0xA5] ∧
    timeline (writeEvents 0xA5 ++ writeEvents 0xA5) = [(0xA5, 0), (0xA5, 23)] ∧
    elapsed (writeEvents 0xA5 ++ writeEvents 0xA5) = 46 := by decide

/-- R165: what decides a pass: S6, P3 and P4. -/
theorem test_pass_outcomes :
    passOutcome (Memory.ofBytes [0x50, 0x8F, 0x7F, 0x66]) = .stopped ∧
    passOutcome (Memory.ofBytes [0x50, 0x85, 0x73, 0x51, 0x07, 0x00, 0x66]) = .stall 0x51 3 ∧
    passOutcome (Memory.ofBytes [0x7F, 0x50, 0x90, 0x61, 0x10]) = .overrun 5 := by decide

/-- The reset memory is in canonical form. -/
theorem test_reset_memory_wf : State.reset.stream.wf := by decide

/-! ### Witnesses: concrete inputs that meet the hypotheses of each statement

Named after the statement. The statements without hypotheses (the meanings of the instructions, the operations of the
Hardware Writer, reset, `StreamReadGivesTheByteAtItsOffset`, `WordsOfTheEncodingTablesDecode`) need none. -/

theorem playing_interprets (bs : List Byte) (c : Nat) (h : (Memory.ofBytes bs).fits = true) :
    Interpreting (playing bs c) := ⟨rfl, h⟩

theorem playing_boundary (bs : List Byte) (c : Nat) (h : (Memory.ofBytes bs).fits = true) (hc : c ≤ bs.length) :
    BoundaryInv (playing bs c) :=
  ⟨Memory.ofBytes_contiguous bs, h, by simpa [playing] using hc, (fun h => by cases h), rfl, rfl, rfl, rfl⟩

theorem playingAt_session (d : Driver) (bs : List Byte) (c : Nat) (h : (Memory.ofBytes bs).fits = true)
    (hc : c ≤ bs.length) (hd : insidePass (playingAt d bs c) = true) : SessionInv (playingAt d bs c) :=
  ⟨playing_boundary bs c h hc, fun h => by rw [hd] at h; cases h⟩

/-- Reset's state, with no stream: nothing has happened. -/
theorem reset_boundary : BoundaryInv State.reset :=
  ⟨by decide, by decide, by decide, (fun h => by cases h), rfl, rfl, rfl, rfl⟩

theorem reset_session : SessionInv Session.reset := ⟨reset_boundary, fun _ => rfl⟩

theorem wit_DecodeRecoversEveryEncodedInstruction :
    (Instr.waitn 15).wf = true ∧ (Instr.psgw 0xFF).wf = true ∧ (Instr.wait16 0xFFFF).wf = true ∧
    (Instr.unhandled 0x4F).wf = true ∧ (Instr.unhandled 0xFF).wf = true := by decide

theorem wit_EncodeReproducesEveryDecodedStream :
    decode [0x61, 0x10, 0x27, 0x66] = .ok (.wait16 10000, [0x66]) := rfl

theorem wit_EveryOpcodeByteHasItsClass :
    (0x70 : Byte) &&& 0xF0 = 0x70 ∧ (0x7F : Byte) &&& 0xF0 = 0x70 ∧
    classify 0x00 = .unhandled 0x00 ∧ classify 0x4F = .unhandled 0x4F ∧ classify 0x51 = .unhandled 0x51 ∧
    classify 0x60 = .unhandled 0x60 ∧ classify 0x64 = .unhandled 0x64 ∧ classify 0x65 = .unhandled 0x65 ∧
    classify 0x67 = .unhandled 0x67 ∧ classify 0x6F = .unhandled 0x6F ∧ classify 0x80 = .unhandled 0x80 ∧
    classify 0xFF = .unhandled 0xFF := by decide

theorem wit_OpcodeByteAloneDecidesTheLength :
    decode [0x50, 0x66, 0x70] = .ok (.psgw 0x66, [0x70]) ∧ decode [0x61, 0x66, 0x50] = .ok (.wait16 0x5066, []) :=
  ⟨rfl, rfl⟩

theorem wit_Wait16OperandIsLittleEndian : (0 : Nat) ≤ 65535 ∧ (65535 : Nat) ≤ 65535 := by decide

theorem wit_NoStepWritesTheStream :
    (∃ t, OneStep (playing [0x50, 0x8F] 0) t) ∧
    (∃ a t, step (playing [0x50] 0) = .fault (.streamOverrun a t)) ∧
    (∃ a t, sessionStep (playingAt .sessionPass [0x50] 0) = .fault (.streamOverrun a t)) :=
  ⟨⟨_, .inl rfl⟩, ⟨_, _, rfl⟩, ⟨_, _, rfl⟩⟩

theorem wit_StepRunsTheDecodedInstruction :
    Interpreting (playing [0x50, 0x8F] 0) ∧
    decode (fetchBytes (playing [0x50, 0x8F] 0).stream (playing [0x50, 0x8F] 0).cursor) = .ok (.psgw 0x8F, []) :=
  ⟨⟨by decide, by decide⟩, rfl⟩

theorem wit_EncodedBytesAtTheCursorRun :
    Interpreting (playing [0x70, 0x61, 0x10, 0x27] 1) ∧ (Instr.wait16 10000).wf = true ∧
    ∀ (j : Nat) (b : Byte), (encode (.wait16 10000))[j]? = some b →
      (playing [0x70, 0x61, 0x10, 0x27] 1).stream.read ((playing [0x70, 0x61, 0x10, 0x27] 1).cursor + j) = some b := by
  refine ⟨⟨by decide, by decide⟩, rfl, fun j b h => ?_⟩
  match j, h with
  | 0, h => exact h
  | 1, h => exact h
  | 2, h => exact h

theorem wit_ShortWaitStep :
    Interpreting (playing [0x7F] 0) ∧
    (playing [0x7F] 0).stream.read (playing [0x7F] 0).cursor = some (0x70 + (15 : BitVec 4).setWidth 8) :=
  ⟨⟨by decide, by decide⟩, rfl⟩

theorem wit_RegisterWriteStep :
    Interpreting (playing [0x50, 0x8F] 0) ∧ (playing [0x50, 0x8F] 0).stream.read 0 = some 0x50 ∧
    (playing [0x50, 0x8F] 0).stream.read 1 = some 0x8F ∧
    Interpreting (playing [0x50] 0) ∧ (playing [0x50] 0).stream.read 0 = some 0x50 ∧
    (playing [0x50] 0).stream.read 1 = none :=
  ⟨⟨by decide, by decide⟩, rfl, rfl, ⟨by decide, by decide⟩, rfl, rfl⟩

theorem wit_CountedWaitStep :
    Interpreting (playing [0x61, 0xFF, 0xFF] 0) ∧ (playing [0x61, 0xFF, 0xFF] 0).stream.read 0 = some 0x61 ∧
    (playing [0x61, 0xFF, 0xFF] 0).stream.read 1 = some 0xFF ∧ (playing [0x61, 0xFF, 0xFF] 0).stream.read 2 = some 0xFF ∧
    Interpreting (playing [0x61] 0) ∧ (playing [0x61] 0).stream.read 0 = some 0x61 ∧
    (playing [0x61] 0).stream.read 1 = none ∧
    Interpreting (playing [0x61, 0x10] 0) ∧ (playing [0x61, 0x10] 0).stream.read 0 = some 0x61 ∧
    (playing [0x61, 0x10] 0).stream.read 1 = some 0x10 ∧ (playing [0x61, 0x10] 0).stream.read 2 = none :=
  ⟨⟨by decide, by decide⟩, rfl, rfl, rfl, ⟨by decide, by decide⟩, rfl, rfl, ⟨by decide, by decide⟩, rfl, rfl, rfl⟩

theorem wit_FixedWaitStep :
    Interpreting (playing [0x62, 0x63] 0) ∧ (playing [0x62, 0x63] 0).stream.read 0 = some 0x62 ∧
    Interpreting (playing [0x62, 0x63] 1) ∧ (playing [0x62, 0x63] 1).stream.read 1 = some 0x63 :=
  ⟨⟨by decide, by decide⟩, rfl, ⟨by decide, by decide⟩, rfl⟩

theorem wit_EndOfStreamStep :
    Interpreting (playing [0x70, 0x66] 1) ∧ (playing [0x70, 0x66] 1).stream.read 1 = some 0x66 ∧
    (∃ t, exec (.wait16 0xFFFF) State.reset = .next t) ∧ (∃ t, exec (.unhandled 0xFF) State.reset = .next t) :=
  ⟨⟨by decide, by decide⟩, rfl, ⟨_, rfl⟩, ⟨_, rfl⟩⟩

theorem wit_UnhandledOpcodeStallsForEver :
    Interpreting (playing [0xFF] 0) ∧ (playing [0xFF] 0).stream.read 0 = some 0xFF ∧ handledOpcode 0xFF = false :=
  ⟨⟨by decide, by decide⟩, rfl, rfl⟩

theorem wit_StallVerdictNamesTheStandstill :
    Interpreting (playing [0x80] 0) ∧ (playing [0x80] 0).stream.read 0 = some 0x80 ∧
    stallVerdict (playing [0x80] 0) = some (0x80, 0) :=
  ⟨⟨by decide, by decide⟩, rfl, by decide⟩

theorem wit_InstructionFrame :
    (∃ t, exec .endStream (playing [0x66] 0) = .next t) ∧ (∃ t, exec (.psgw 0x8F) (playing [] 0) = .next t) ∧
    (∃ t, exec (.waitn 0) (playing [] 0) = .next t) := ⟨⟨_, rfl⟩, ⟨_, rfl⟩, ⟨_, rfl⟩⟩

theorem wit_OnlyEndStopsAndOnlyAPassStarts :
    nextHas (fun t => t.run == .stopped) (step (playing [0x66] 0)) = true ∧
    sessionHas (fun t => t.run == .stopped) (sessionStep (playingAt .sessionPass [0x66] 0)) = true ∧
    sessionHas (fun t => t.run == .running) (sessionStep { playingAt .enterPass [] 0 with run := .stopped }) = true := by
  decide

theorem wit_OnlyInstructionsMoveTheCursor :
    nextHas (fun t => t.cursor != 1) (step (playing [0x70, 0x66] 1)) = true ∧
    (∃ t, OneStep (playing [0x70, 0x66] 1) t) := ⟨by decide, _, .inl rfl⟩

/-- A step of the machine, and a line of a session. -/
theorem wit_TraceAndLogOnlyGrow :
    (∃ t, OneStep (playing [0x50, 0x8F] 0) t) ∧ OneStep State.reset (driverConfigureBus Session.reset).toState :=
  ⟨⟨_, .inl rfl⟩, .inr ⟨Session.reset, _, rfl, rfl, rfl⟩⟩

theorem wit_EveryRequestedDelayFitsTheTimer :
    nextHas (fun t => t.trace == [.delay 1507305]) (step (playing [0x61, 0xFF, 0xFF] 0)) = true := by decide

theorem wit_InstructionRequestsItsTime : ∃ t, exec (.wait16 0xFFFF) (playing [] 0) = .next t := ⟨_, rfl⟩

theorem wit_StepIgnoresThePast :
    sameControl (playing [0x50, 0x8F] 0) { playing [0x50, 0x8F] 0 with srOut := 0xA5, psgLog := [0xA5], trace := [.done] } ∧
    (∃ t, step (playing [0x50, 0x8F] 0) = .next t) ∧
    sameControl (playingAt .settle [] 0).toState { playingAt .settle [] 0 with trace := [.done] }.toState ∧
    (∃ q, sessionStep (playingAt .settle [] 0) = .next q) :=
  ⟨⟨rfl, rfl, rfl, rfl⟩, ⟨_, rfl⟩, ⟨rfl, rfl, rfl, rfl⟩, ⟨_, rfl⟩⟩

/-- A pass of a session that goes on, and one that overruns. -/
theorem wit_SessionRunsThePassOfTheMachine :
    insidePass (playingAt .sessionPass [0x70, 0x66] 0) = true ∧ (playingAt .sessionPass [0x70, 0x66] 0).run = .running ∧
    (∃ t, runFor 2 (playing [0x70, 0x66] 0) = .next t) ∧
    (∃ f, runFor 2 (playing [0x70] 0) = .fault f) := ⟨rfl, rfl, ⟨_, rfl⟩, ⟨_, rfl⟩⟩

/-- A cell at the last offset a 32-bit Cursor cannot give a stream. -/
theorem wit_StepRefusesOnlyAnUnaddressableStream :
    Memory.fits [(4294967295, 0)] = false ∧ Memory.fits [(4294967294, 0)] = true := by decide

theorem wit_TickingDownIsTheBlockingDelay :
    (2 : Nat) < { State.reset with dly := 3 }.dly.toNat ∧ (4294967295 : Nat) < 2 ^ 32 := by decide

theorem wit_OverrunHappensOnlyAtAMissingRead :
    overrunHas 0 (fun t => t.cursor == 0) (step (playing [] 0)) = true ∧
    overrunHas 1 (fun t => t.cursor == 1) (step (playing [0x50] 0)) = true ∧
    overrunHas 1 (fun t => t.cursor == 1) (step (playing [0x61] 0)) = true ∧
    overrunHas 2 (fun t => t.cursor == 1) (step (playing [0x61, 0x10] 0)) = true ∧
    (playing [] 0).fault = none ∧ (playingAt .barePass [] 0).fault = none := by decide

theorem wit_FetchPastTheEndOverruns :
    Interpreting (playing [0x70] 1) ∧ (playing [0x70] 1).stream.read 1 = none := ⟨⟨by decide, by decide⟩, rfl⟩

theorem wit_AnOverrunIsForEver :
    (∃ t, step (playing [0x70] 1) = .fault (.streamOverrun 1 t)) ∧
    (∃ t, sessionStep (playingAt .barePass [0x70] 1) = .fault (.streamOverrun 1 t)) := ⟨⟨_, rfl⟩, ⟨_, rfl⟩⟩

theorem wit_OverrunReportsTheStreamLength :
    BoundaryInv (playing [0x7F, 0x61, 0x10] 1) ∧
    (∃ t, step (playing [0x7F, 0x61, 0x10] 1) = .fault (.streamOverrun 3 t)) ∧
    SessionInv (playingAt .sessionPass [0x7F, 0x61, 0x10] 1) ∧
    (∃ t, sessionStep (playingAt .sessionPass [0x7F, 0x61, 0x10] 1) = .fault (.streamOverrun 3 t)) :=
  ⟨playing_boundary _ _ (by decide) (by decide), ⟨_, rfl⟩, playingAt_session _ _ _ (by decide) (by decide) rfl, ⟨_, rfl⟩⟩

theorem wit_StepKeepsBoundaryInv :
    BoundaryInv (playing [0x50, 0x8F] 0) ∧ (∃ t, step (playing [0x50, 0x8F] 0) = .next t) ∧
    SessionInv Session.reset ∧ (∃ q, sessionStep Session.reset = .next q) :=
  ⟨playing_boundary _ _ (by decide) (by decide), ⟨_, rfl⟩, reset_session, ⟨_, rfl⟩⟩

theorem wit_StepKeepsBusInv :
    BusInv 0 (playing [0x50, 0x8F] 0) ∧ (∃ t, step (playing [0x50, 0x8F] 0) = .next t) ∧
    BusInv 0 Session.reset.toState ∧ (∃ q, sessionStep Session.reset = .next q) :=
  ⟨⟨.empty, rfl, rfl, rfl, rfl⟩, ⟨_, rfl⟩, ⟨.empty, rfl, rfl, rfl, rfl⟩, ⟨_, rfl⟩⟩

theorem wit_ResetHasBothInvariants : ∃ q, supplyStream [0x66] Session.reset = .next q := ⟨_, rfl⟩

theorem wit_DisciplinedTraceKeepsThePulseContract :
    BusTrace (writeEvents 0x8F) ∧ (writeEvents 0x8F)[4]? = some (.we 0) ∧ (writeEvents 0x8F)[2]? = some (.spi 0x8F) :=
  ⟨.write 0x8F .empty, rfl, rfl⟩

theorem wit_TimelineStampsEachWrite : BusTrace [.delay 368] := .delay 368 .empty

theorem wit_HostMovesWaitForPlayback :
    awaitsHost (playingAt .barePass [0x66] 0) = false ∧ awaitsHost Session.reset = true ∧
    insidePass (playingAt .barePass [0x66] 0) = true ∧ Interpreting (playing [0x66] 0) ∧ ([0x66] : List Byte).length ≤ 2 ^ 32 - 1 ∧
    2 ^ 32 - 1 < (List.replicate (2 ^ 32) (0 : Byte)).length :=
  ⟨by decide, by decide, by decide, ⟨by decide, by decide⟩, by decide, by rw [List.length_replicate]; decide⟩

theorem wit_HostMovesKeepSessionInv :
    SessionInv Session.reset ∧ (∃ q, supplyStream [0x66] Session.reset = .next q) ∧
    (∃ q, startSession Session.reset = .next q) ∧ (∃ q, startPass Session.reset = .next q) :=
  ⟨reset_session, ⟨_, rfl⟩, ⟨_, rfl⟩, ⟨_, rfl⟩⟩

theorem wit_SessionSurroundsThePass :
    Session.reset.stream.fits = true ∧ Session.reset.fault = none ∧ Session.reset.driver = .configureBus ∧
    { Session.reset with driver := .sessionPass, run := .stopped }.run = .stopped ∧
    sessionHas (fun t => t.driver == .sessionPass) (sessionStep (playingAt .sessionPass [0x70] 0)) = true := by decide

/-- The stream of S6. -/
theorem wit_WellFormedPassEndsInStopped :
    Interpreting (playing [0x50, 0x8F, 0x7F, 0x66] 0) ∧ (∀ i ∈ [Instr.psgw 0x8F, .waitn 15], goesOn i = true) ∧
    (playing [0x50, 0x8F, 0x7F, 0x66] 0).stream = Memory.ofBytes (encodeAll [.psgw 0x8F, .waitn 15] ++ 0x66 :: []) ∧
    BusTrace (playing [0x50, 0x8F, 0x7F, 0x66] 0).trace :=
  ⟨⟨by decide, by decide⟩, by decide, by decide, .empty⟩

/-- The stream of S6, from reset. -/
theorem wit_WellFormedSessionPlaysToDone :
    let s := { Session.reset with stream := Memory.ofBytes [0x50, 0x8F, 0x7F, 0x66] }
    s.driver = .configureBus ∧ s.cursor = 0 ∧ s.fault = none ∧ s.stream.fits = true ∧
    (∀ i ∈ [Instr.psgw 0x8F, .waitn 15], goesOn i = true) ∧
    s.stream = Memory.ofBytes (encodeAll [.psgw 0x8F, .waitn 15] ++ 0x66 :: []) ∧ BusTrace s.trace :=
  ⟨rfl, rfl, rfl, by decide, by decide, by decide, .empty⟩

/-- One stream for each of the three outcomes. -/
theorem wit_StreamAloneDecidesThePass :
    (BoundaryInv (playing [0x66] 0) ∧ Interpreting (playing [0x66] 0) ∧
      passOutcome (playing [0x66] 0).stream = .stopped) ∧
    (BoundaryInv (playing [0x70, 0x51] 0) ∧ Interpreting (playing [0x70, 0x51] 0) ∧
      passOutcome (playing [0x70, 0x51] 0).stream = .stall 0x51 1) ∧
    (BoundaryInv (playing [] 0) ∧ Interpreting (playing [] 0) ∧ passOutcome (playing [] 0).stream = .overrun 0) :=
  ⟨⟨playing_boundary _ _ (by decide) (by decide), ⟨by decide, by decide⟩, by decide⟩,
   ⟨playing_boundary _ _ (by decide) (by decide), ⟨by decide, by decide⟩, by decide⟩,
   ⟨playing_boundary _ _ (by decide) (by decide), ⟨by decide, by decide⟩, by decide⟩⟩

/-- The stream of S6 is well formed; one that ends before its `END` is not. -/
theorem wit_WellFormedStreamsAreThoseThatStop :
    wellFormedStream (Memory.ofBytes [0x50, 0x8F, 0x7F, 0x66]) = true ∧
    wellFormedStream (Memory.ofBytes [0x50, 0x66]) = false ∧
    (playing [0x50, 0x8F, 0x7F, 0x66] 0).stream = Memory.ofBytes [0x50, 0x8F, 0x7F, 0x66] ∧
    inPass (playing [0x50, 0x8F, 0x7F, 0x66] 0) = true ∧ (playing [0x50, 0x8F, 0x7F, 0x66] 0).cursor = 0 := by decide

/-- The phase machine at an instruction boundary, with stale latches. -/
def atFetch (bs : List Byte) : PhaseState :=
  { base := playing bs 0, phase := .fetch, ir := 0x66, opd := 0x11, lo := 0x22, hi := 0x33 }

theorem wit_PhasesRefineTheAtomicStep :
    (atFetch [0x61, 0x10, 0x27]).phase = .fetch ∧ fetch (atFetch [0x61, 0x10, 0x27]).base = .ok (.wait16 10000) :=
  ⟨rfl, rfl⟩

theorem wit_PhasesOverrunAsTheAtomicStep :
    (atFetch [0x61, 0x10]).phase = .fetch ∧ Interpreting (atFetch [0x61, 0x10]).base ∧
    ∀ i, fetch (atFetch [0x61, 0x10]).base ≠ .ok i := by
  refine ⟨rfl, ⟨by decide, by decide⟩, fun i h => ?_⟩
  have : fetch (atFetch [0x61, 0x10]).base = .error .noHigh := rfl
  rw [this] at h
  cases h

end Sys2Proof.Tests
end

/-! SUPPORT. Disciplined traces are built from blocks (R166 to R168), and the observations of R12 and R13 are additive over
them: no write transaction straddles the border between two blocks. -/

namespace Sys2Proof.Machine

/-! ### Blocks -/

/-- What a disciplined trace is built from: one constructor for each way `BusTrace` grows. -/
inductive BusBlock : List Event → Prop where
  | write (b : Byte) : BusBlock (transaction b)
  | delay (us : Nat) : BusBlock [.delay us]
  | csIdle : BusBlock [.cs .idle]
  | busConfig : BusBlock [.busConfig]
  | done : BusBlock [.done]

theorem BusTrace.append_block {tr blk : List Event} (h : BusTrace tr) (hblk : BusBlock blk) : BusTrace (tr ++ blk) := by
  cases hblk with
  | write b => exact .write b h
  | delay us => exact .delay us h
  | csIdle => exact .csIdle h
  | busConfig => exact .busConfig h
  | done => exact .done h

/-- Induction over the blocks of a disciplined trace, one case for all of them. -/
theorem BusTrace.block_induction {motive : ∀ tr, BusTrace tr → Prop} (empty : motive [] .empty)
    (append : ∀ tr blk (h : BusTrace tr) (hblk : BusBlock blk), motive tr h → motive (tr ++ blk) (h.append_block hblk))
    {tr : List Event} (h : BusTrace tr) : motive tr h := by
  induction h with
  | empty => exact empty
  | write b h ih => exact append _ _ h (.write b) ih
  | delay us h ih => exact append _ _ h (.delay us) ih
  | csIdle h ih => exact append _ _ h .csIdle ih
  | busConfig h ih => exact append _ _ h .busConfig ih
  | done h ih => exact append _ _ h .done ih

theorem BusBlock.busTrace {blk : List Event} (h : BusBlock blk) : BusTrace blk := BusTrace.empty.append_block h

theorem BusTrace.append {tr ev : List Event} (htr : BusTrace tr) (hev : BusTrace ev) : BusTrace (tr ++ ev) := by
  induction hev using BusTrace.block_induction with
  | empty => simpa using htr
  | append ev blk _ hblk ih => simpa using ih.append_block hblk

/-! ### Where a block may end

A write transaction opens with `WE(1)`, `CS(Active)`. A block may end in `WE(1)`, so what keeps a transaction from
straddling its end is that no block begins with `CS(Active)`. -/

theorem BusBlock.head_ne_csActive {blk : List Event} (h : BusBlock blk) (ev : List Event) :
    (blk ++ ev).head? ≠ some (.cs .active) := by
  cases h <;> simp [transaction]

theorem BusTrace.head_ne_csActive {tr : List Event} (h : BusTrace tr) : tr.head? ≠ some (.cs .active) := by
  induction h using BusTrace.block_induction with
  | empty => simp
  | append tr blk _ hblk ih =>
    cases tr with
    | nil => simpa using hblk.head_ne_csActive []
    | cons e tr => simpa using ih

/-- Only `WE`, `CS(Active)` opens a transaction. -/
theorem transactionAt_we_eq_none {ev : List Event} (v : Bit) (h : ev.head? ≠ some (.cs .active)) :
    transactionAt (.we v :: ev) = none := by
  unfold transactionAt
  split
  · simp_all
  · rfl

/-- A block contributes to the timeline the same writes whatever follows it. -/
theorem BusBlock.timelineFrom_append {blk ev : List Event} (h : BusBlock blk) (hev : ev.head? ≠ some (.cs .active))
    (t : Nat) : timelineFrom t (blk ++ ev) = timelineFrom t blk ++ timelineFrom (t + elapsed blk) ev := by
  cases h with
  | write b =>
    have hlast : transactionAt (.we 1 :: ev) = none := transactionAt_we_eq_none 1 hev
    show (b, t) :: ((transactionAt (.we 1 :: ev)).toList.map _ ++ timelineFrom _ ev) = _
    rw [hlast]
    rfl
  | delay us => rfl
  | csIdle => rfl
  | busConfig => rfl
  | done => rfl

/-! ### The observations of an appended trace -/

@[simp] theorem elapsed_append (tr ev : List Event) : elapsed (tr ++ ev) = elapsed tr + elapsed ev := by
  induction tr with
  | nil => simp [elapsed]
  | cons e tr ih => simp [elapsed, ih, Nat.add_assoc]

/-- The timeline of what follows a disciplined trace is counted apart, from the time the trace requested. -/
theorem BusTrace.timelineFrom_append {tr : List Event} (htr : BusTrace tr) :
    ∀ {ev : List Event}, ev.head? ≠ some (.cs .active) → ∀ t : Nat,
      timelineFrom t (tr ++ ev) = timelineFrom t tr ++ timelineFrom (t + elapsed tr) ev := by
  induction htr using BusTrace.block_induction with
  | empty => simp [timelineFrom, elapsed]
  | append tr blk _ hblk ih =>
    intro ev hev t
    have hblk' : blk.head? ≠ some (.cs .active) := hblk.busTrace.head_ne_csActive
    rw [List.append_assoc, ih (hblk.head_ne_csActive ev), ih hblk', hblk.timelineFrom_append hev, elapsed_append,
      List.append_assoc, Nat.add_assoc]

/-- The writes are the timeline without its stamps. -/
theorem writes_eq_map_timelineFrom (tr : List Event) (t : Nat) : writes tr = (timelineFrom t tr).map Prod.fst := by
  induction tr generalizing t with
  | nil => rfl
  | cons e tr ih => simp [writes, timelineFrom, ih (t + e.requested), Function.comp_def]

theorem BusTrace.writes_append {tr ev : List Event} (htr : BusTrace tr) (hev : BusTrace ev) :
    writes (tr ++ ev) = writes tr ++ writes ev := by
  rw [writes_eq_map_timelineFrom _ 0, htr.timelineFrom_append hev.head_ne_csActive, List.map_append,
    ← writes_eq_map_timelineFrom, ← writes_eq_map_timelineFrom]

@[simp] theorem lastWe_append (v : Bit) (tr ev : List Event) : lastWe v (tr ++ ev) = lastWe (lastWe v tr) ev := by
  induction tr generalizing v with
  | nil => rfl
  | cons e tr ih => cases e <;> exact ih _

@[simp] theorem lastCs_append (c : CsState) (tr ev : List Event) : lastCs c (tr ++ ev) = lastCs (lastCs c tr) ev := by
  induction tr generalizing c with
  | nil => rfl
  | cons e tr ih => cases e <;> exact ih _

@[simp] theorem lastSpi_append (b : Byte) (tr ev : List Event) : lastSpi b (tr ++ ev) = lastSpi (lastSpi b tr) ev := by
  induction tr generalizing b with
  | nil => rfl
  | cons e tr ih => cases e <;> exact ih _

/-- One event alone is no write. -/
@[simp] theorem writes_singleton (e : Event) : writes [e] = [] := by
  cases e <;> rfl

@[simp] theorem writes_transaction (b : Byte) : writes (transaction b) = [b] := rfl

@[simp] theorem elapsed_transaction (b : Byte) : elapsed (transaction b) = 23 := rfl

/-- R81: the seven events the statements name are the write transaction of the model. -/
theorem writeEvents_eq_transaction (b : Byte) : writeEvents b = transaction b := rfl

/-- R83: the 28 events the statements name are those of the model's mute sequence. -/
theorem muteEvents_eq : muteEvents = Config.muteSeq.flatMap transaction := rfl

/-! ### The statement about one more write -/

/-- Settles O43: a write transaction is a disciplined trace of its own, and the observations are additive. -/
theorem timelineStampsEachWrite : Obligations.TimelineStampsEachWrite := by
  intro tr b htr
  have hb : BusTrace (writeEvents b) := (BusBlock.write b).busTrace
  refine ⟨htr.writes_append hb, ?_, elapsed_append tr _⟩
  calc timelineFrom 0 (tr ++ writeEvents b)
      = timelineFrom 0 tr ++ timelineFrom (0 + elapsed tr) (writeEvents b) :=
        htr.timelineFrom_append hb.head_ne_csActive 0
    _ = timelineFrom 0 tr ++ [(b, elapsed tr)] := by rw [Nat.zero_add]; rfl

end Sys2Proof.Machine

/-! SUPPORT. What the operations, the instructions and the lines of a session emit, and what that does to the outside (R27,
R28, R31, R32): one relation, `BusEffect`, that composes. -/

namespace Sys2Proof.Machine

/-! ### The effect on the bus -/

/-- From `s` to `t` the disciplined events `ev` were emitted, the PSG accepted exactly their writes, and the pins and the
shift register hold what `ev` last drove. -/
structure BusEffect (ev : List Event) (s t : State) : Prop where
  disciplined : BusTrace ev
  trace       : t.trace = s.trace ++ ev
  psgLog      : t.psgLog = s.psgLog ++ writes ev
  we          : t.we = lastWe s.we ev
  cs          : t.cs = lastCs s.cs ev
  srOut       : t.srOut = lastSpi s.srOut ev

/-- No event, and nothing outside the machine changes: what the Cursor, `RUN` and the timer do. -/
theorem BusEffect.silent {s t : State} (htrace : t.trace = s.trace) (hlog : t.psgLog = s.psgLog) (hwe : t.we = s.we)
    (hcs : t.cs = s.cs) (hsr : t.srOut = s.srOut) : BusEffect [] s t where
  disciplined := .empty
  trace := by simpa using htrace
  psgLog := by simpa [writes] using hlog
  we := hwe
  cs := hcs
  srOut := hsr

theorem BusEffect.refl (s : State) : BusEffect [] s s := .silent rfl rfl rfl rfl rfl

/-- One event that is a block by itself, and so no write. -/
theorem BusEffect.single {e : Event} {s t : State} (he : BusBlock [e]) (htrace : t.trace = s.trace ++ [e])
    (hlog : t.psgLog = s.psgLog) (hwe : t.we = lastWe s.we [e]) (hcs : t.cs = lastCs s.cs [e])
    (hsr : t.srOut = lastSpi s.srOut [e]) : BusEffect [e] s t where
  disciplined := he.busTrace
  trace := htrace
  psgLog := by rw [hlog, writes_singleton, List.append_nil]
  we := hwe
  cs := hcs
  srOut := hsr

theorem BusEffect.trans {ev ev' : List Event} {s t u : State} (h : BusEffect ev s t) (h' : BusEffect ev' t u) :
    BusEffect (ev ++ ev') s u where
  disciplined := h.disciplined.append h'.disciplined
  trace := by rw [h'.trace, h.trace, List.append_assoc]
  psgLog := by rw [h'.psgLog, h.psgLog, h.disciplined.writes_append h'.disciplined, List.append_assoc]
  we := by rw [h'.we, h.we, lastWe_append]
  cs := by rw [h'.cs, h.cs, lastCs_append]
  srOut := by rw [h'.srOut, h.srOut, lastSpi_append]

/-- The writes of the whole trace, once what stood before is disciplined. -/
theorem BusEffect.writes_trace {ev : List Event} {s t : State} (h : BusEffect ev s t) (hs : BusTrace s.trace) :
    writes t.trace = writes s.trace ++ writes ev := by
  rw [h.trace, hs.writes_append h.disciplined]

theorem BusEffect.elapsed_trace {ev : List Event} {s t : State} (h : BusEffect ev s t) :
    elapsed t.trace = elapsed s.trace + elapsed ev := by
  rw [h.trace, elapsed_append]

theorem BusInv.of_effect {sr : Byte} {ev : List Event} {s t : State} (hs : BusInv sr s) (h : BusEffect ev s t) :
    BusInv sr t where
  disciplined := h.trace ▸ hs.disciplined.append h.disciplined
  logIsWrites := by rw [h.psgLog, hs.logIsWrites, h.writes_trace hs.disciplined]
  wePin := by rw [h.we, hs.wePin, h.trace, lastWe_append]
  csPin := by rw [h.cs, hs.csPin, h.trace, lastCs_append]
  srOutputs := by rw [h.srOut, hs.srOutputs, h.trace, lastSpi_append]

/-! ### The operations -/

theorem busEffect_setCursor (v : Nat) (s : State) : BusEffect [] s (setCursor v s) := .silent rfl rfl rfl rfl rfl
theorem busEffect_advanceCursor (n : Nat) (s : State) : BusEffect [] s (advanceCursor n s) := .silent rfl rfl rfl rfl rfl
theorem busEffect_stopRun (s : State) : BusEffect [] s (stopRun s) := .silent rfl rfl rfl rfl rfl
theorem busEffect_beginPass (s : State) : BusEffect [] s (beginPass s) := .silent rfl rfl rfl rfl rfl

theorem busEffect_delay (us : Nat) (s : State) : BusEffect [.delay us] s (delay us s) :=
  .single (.delay us) rfl rfl rfl rfl rfl

theorem busEffect_sendByte (b : Byte) (s : State) : BusEffect (transaction b) s (sendByte b s) where
  disciplined := (BusBlock.write b).busTrace
  trace := by simp
  psgLog := by simp
  we := by rw [sendByte_we]; rfl
  cs := by rw [sendByte_cs]; rfl
  srOut := by rw [sendByte_srOut]; rfl

theorem busEffect_sendAll (bs : List Byte) (s : State) : BusEffect (bs.flatMap transaction) s (sendAll bs s) := by
  induction bs generalizing s with
  | nil => exact .refl s
  | cons b rest ih => exact (busEffect_sendByte b s).trans (ih _)

theorem busEffect_silenceAllChannels (s : State) : BusEffect muteEvents s (silenceAllChannels s) :=
  muteEvents_eq ▸ busEffect_sendAll Config.muteSeq s

theorem busEffect_driveCs_idle (s : State) : BusEffect [.cs .idle] s (driveCs .idle s) :=
  .single .csIdle rfl rfl rfl rfl rfl

theorem busEffect_emit_busConfig (s : State) : BusEffect [.busConfig] s (emit .busConfig s) :=
  .single .busConfig rfl rfl rfl rfl rfl

theorem busEffect_emit_done (s : State) : BusEffect [.done] s (emit .done s) :=
  .single .done rfl rfl rfl rfl rfl

/-! ### The instructions -/

/-- The state an instruction leaves; `exec` completes in it from every state. -/
def afterInstr : Instr → State → State
  | .waitn k, s => delayUnits (shortWaitUnits k) (advanceCursor 1 s)
  | .psgw d, s => advanceCursor 1 (sendByte (dataByte d) (advanceCursor 1 s))
  | .wait16 n, s => delayUnits (countUnits n) (advanceCursor 2 (advanceCursor 1 s))
  | .wait735, s => delay Config.waitAUs (advanceCursor 1 s)
  | .wait882, s => delay Config.waitBUs (advanceCursor 1 s)
  | .endStream, s => stopRun (delay Config.endPauseUs (silenceAllChannels (setCursor 0 s)))
  | .unhandled _, s => s

theorem exec_eq (i : Instr) (s : State) : exec i s = .next (afterInstr i s) := by
  cases i <;> rfl

theorem exec_next_iff {i : Instr} {s t : State} : exec i s = .next t ↔ t = afterInstr i s := by
  rw [exec_eq]
  exact ⟨fun h => (Host.Outcome.next.inj h).symm, fun h => h ▸ rfl⟩

@[simp] theorem afterInstr_stream (i : Instr) (s : State) : (afterInstr i s).stream = s.stream := by
  cases i <;> simp [afterInstr]

@[simp] theorem afterInstr_fault (i : Instr) (s : State) : (afterInstr i s).fault = s.fault := by
  cases i <;> simp [afterInstr]

@[simp] theorem afterInstr_cursor (i : Instr) (s : State) : (afterInstr i s).cursor = cursorAfter i s.cursor := by
  cases i <;> simp [afterInstr, cursorAfter]

/-- R25: only `END` writes `RUN`. -/
theorem afterInstr_run {i : Instr} (s : State) (hi : i ≠ .endStream) : (afterInstr i s).run = s.run := by
  cases i <;> simp_all [afterInstr]

@[simp] theorem afterInstr_endStream_run (s : State) : (afterInstr .endStream s).run = .stopped := rfl

/-- What each instruction does to the bus is what the rules say it emits. -/
theorem busEffect_afterInstr (i : Instr) (s : State) : BusEffect (eventsOf i) s (afterInstr i s) := by
  cases i with
  | waitn k => exact (busEffect_advanceCursor 1 s).trans (busEffect_delay _ _)
  | psgw d =>
    exact ((busEffect_advanceCursor 1 s).trans (busEffect_sendByte d _)).trans (busEffect_advanceCursor 1 _)
  | wait16 n => exact (busEffect_advanceCursor 3 s).trans (busEffect_delay _ _)
  | wait735 => exact (busEffect_advanceCursor 1 s).trans (busEffect_delay _ _)
  | wait882 => exact (busEffect_advanceCursor 1 s).trans (busEffect_delay _ _)
  | endStream =>
    exact (((busEffect_setCursor 0 s).trans (busEffect_silenceAllChannels _)).trans (busEffect_delay 2000000 _)).trans
      (busEffect_stopRun _)
  | unhandled op => exact .refl s

theorem busTrace_eventsOf (i : Instr) : BusTrace (eventsOf i) := (busEffect_afterInstr i State.reset).disciplined

@[simp] theorem elapsed_muteEvents : elapsed muteEvents = 92 := rfl

theorem elapsed_eventsOf (i : Instr) : elapsed (eventsOf i) = requestedUs i := by
  cases i with
  | endStream => rw [eventsOf, elapsed_append, elapsed_muteEvents]; rfl
  | psgw d => rfl
  | unhandled op => rfl
  | _ => simp [eventsOf, requestedUs, elapsed, Event.requested]

/-! ### The steps -/

theorem step_busEffect {s t : State} (h : step s = .next t) : ∃ ev, BusEffect ev s t := by
  obtain ⟨-, -, ⟨-, rfl⟩ | ⟨-, i, -, hexec⟩⟩ := step_next_cases h
  · exact ⟨[], .refl t⟩
  · exact ⟨eventsOf i, exec_next_iff.1 hexec ▸ busEffect_afterInstr i s⟩

theorem session_busEffect {p q : Session} (h : sessionStep p = .next q) : ∃ ev, BusEffect ev p.toState q.toState := by
  obtain ⟨-, -, hline⟩ := session_next_cases h
  rcases hline with ⟨-, rfl⟩ | ⟨-, rfl⟩ | ⟨-, rfl⟩ | ⟨-, rfl⟩ | ⟨-, rfl⟩ | ⟨-, -, rfl⟩ | ⟨-, rfl⟩ | ⟨-, rfl⟩ |
    ⟨-, -, rfl⟩ | ⟨-, -, -, i, -, hexec⟩
  · exact ⟨_, busEffect_emit_busConfig _⟩
  · exact ⟨_, busEffect_driveCs_idle _⟩
  · exact ⟨_, busEffect_silenceAllChannels _⟩
  · exact ⟨_, busEffect_delay _ _⟩
  · exact ⟨_, busEffect_beginPass _⟩
  · exact ⟨_, busEffect_silenceAllChannels _⟩
  · exact ⟨_, busEffect_emit_done _⟩
  · exact ⟨_, .refl _⟩
  · exact ⟨_, .refl _⟩
  · exact ⟨eventsOf i, exec_next_iff.1 hexec ▸ busEffect_afterInstr i p.toState⟩

/-! ### The statements about the bus and the requested time -/

/-- Settles O40: every step has a disciplined effect on the bus, and such an effect keeps the invariant. -/
theorem stepKeepsBusInv : Obligations.StepKeepsBusInv := by
  constructor
  · intro sr s t hs hstep
    obtain ⟨ev, heffect⟩ := step_busEffect hstep
    exact hs.of_effect heffect
  · intro sr p q hp hstep
    obtain ⟨ev, heffect⟩ := session_busEffect hstep
    exact hp.of_effect heffect

/-- Settles O27: the time of an instruction is that of the events the rules list for it. -/
theorem instructionRequestsItsTime : Obligations.InstructionRequestsItsTime := by
  intro i s t hexec
  rw [exec_next_iff.1 hexec, (busEffect_afterInstr i s).elapsed_trace, elapsed_eventsOf]

end Sys2Proof.Machine

/-! SUPPORT. A step inside a pass, of the machine and of the session around it: which instruction it runs (R69), and that the
session adds nothing (R15, R161). -/

namespace Sys2Proof.Machine

/-! ### The machine's step inside a pass -/

theorem fetch_of_decode {s : State} {i : Instr} {rest : List Byte}
    (h : decode (fetchBytes s.stream s.cursor) = .ok (i, rest)) : fetch s = .ok i := by
  simp [fetch, h]

theorem interpretStep_of_fetch {s : State} {i : Instr} (h : fetch s = .ok i) : interpretStep s = exec i s := by
  simp [interpretStep, interpretWith, h]

theorem step_of_fetch {s : State} {i : Instr} (hs : Interpreting s) (hi : fetch s = .ok i) :
    step s = .next (afterInstr i s) := by
  rw [step_of_interpreting hs, interpretStep_of_fetch hi, exec_eq]

theorem interpreting_iff {s : State} :
    Interpreting s ↔ s.run = .running ∧ s.fault = none ∧ s.stream.fits = true := by
  constructor
  · rintro ⟨hpass, hfits⟩
    simp only [inPass, Bool.and_eq_true, beq_iff_eq] at hpass
    exact ⟨hpass.1, hpass.2, hfits⟩
  · rintro ⟨hrun, hfault, hfits⟩
    exact ⟨by simp [inPass, hrun, hfault], hfits⟩

/-- Any instruction but `END` leaves the pass running. -/
theorem Interpreting.afterInstr {s : State} {i : Instr} (hs : Interpreting s) (hi : i ≠ .endStream) :
    Interpreting (afterInstr i s) := by
  rw [interpreting_iff] at hs ⊢
  simpa [afterInstr_run s hi] using hs

/-- R122: once `RUN = Stopped` a step changes nothing. -/
theorem step_of_stopped {s : State} (hfits : s.stream.fits = true) (hfault : s.fault = none) (hrun : s.run = .stopped) :
    step s = .next s := by
  simp [step, passTurn, hfits, hfault, hrun]

/-- A step hands on what the next step needs: a stream the Cursor can address, and no fault. -/
theorem step_next_ready {s t : State} (h : step s = .next t) : t.stream.fits = true ∧ t.fault = none := by
  obtain ⟨hfits, hfault, ⟨-, rfl⟩ | ⟨-, i, -, hexec⟩⟩ := step_next_cases h
  · exact ⟨hfits, hfault⟩
  · simp [exec_next_iff.1 hexec, hfits, hfault]

/-- A pass that has stopped stays where it is, however long the machine runs on. -/
theorem runFor_of_step_stopped {s t : State} (h : step s = .next t) (hrun : t.run = .stopped) (k : Nat) :
    runFor k t = .next t := by
  obtain ⟨hfits, hfault⟩ := step_next_ready h
  exact runFor_fixed (step_of_stopped hfits hfault hrun) k

/-! ### The session's step inside a pass -/

/-- What the machine does from here, the session does. -/
theorem sessionStep_next_of_step {p : Session} {t : State} (hd : insidePass p = true) (hrun : p.run = .running)
    (h : step p.toState = .next t) : sessionStep p = .next { toState := t, driver := p.driver } := by
  rw [sessionStep_of_insidePass hd hrun, h, after_next]

theorem after_eq_fault_iff (p : Session) (o : Host.Outcome State Fault Refusal) (f : Fault) :
    p.after o = .fault f ↔ o = .fault f := by
  cases o <;> simp

theorem after_eq_refused_iff (p : Session) (o : Host.Outcome State Fault Refusal) (r : Refusal) :
    p.after o = .refused r ↔ o = .refused r := by
  cases o <;> simp

/-- A run of the machine inside a pass is a run of the session, as long as the pass goes on. (A stopped machine steps on
the spot, where the session goes on to its next line: so the session may need fewer steps, never more.) -/
theorem sessionFor_of_runFor (k : Nat) {p : Session} {t : State} (hd : insidePass p = true) (hrun : p.run = .running)
    (h : runFor k p.toState = .next t) :
    ∃ j, j ≤ k ∧ (t.run = .running → j = k) ∧ sessionFor j p = .next { toState := t, driver := p.driver } := by
  induction k generalizing p with
  | zero =>
    obtain rfl := Host.Outcome.next.inj h
    exact ⟨0, le_rfl, fun _ => rfl, rfl⟩
  | succ k ih =>
    cases hstep : step p.toState with
    | next u =>
      have hsession := sessionStep_next_of_step hd hrun hstep
      rw [runFor_next hstep] at h
      cases hu : u.run with
      | running =>
        obtain ⟨j, hjk, hj, hfor⟩ := ih (p := { toState := u, driver := p.driver }) hd hu h
        exact ⟨j + 1, by omega, fun ht => by rw [hj ht], by rw [sessionFor_next hsession, hfor]⟩
      | stopped =>
        rw [runFor_of_step_stopped hstep hu] at h
        obtain rfl := Host.Outcome.next.inj h
        exact ⟨1, by omega, by simp [hu], sessionFor_next hsession 0⟩
    | fault f =>
      rw [runFor_fault hstep] at h
      cases h
    | refused r =>
      rw [runFor_refused hstep] at h
      cases h

/-- A run of the machine that ends in a fault never stopped before, so the session runs into the same fault. -/
theorem sessionFor_fault_of_runFor (k : Nat) {p : Session} {f : Fault} (hd : insidePass p = true)
    (hrun : p.run = .running) (h : runFor k p.toState = .fault f) : sessionFor k p = .fault f := by
  induction k generalizing p with
  | zero => cases h
  | succ k ih =>
    cases hstep : step p.toState with
    | next u =>
      rw [runFor_next hstep] at h
      rw [sessionFor_next (sessionStep_next_of_step hd hrun hstep)]
      cases hu : u.run with
      | running => exact ih hd hu h
      | stopped =>
        rw [runFor_of_step_stopped hstep hu] at h
        cases h
    | fault g =>
      rw [runFor_fault hstep] at h
      obtain rfl := Host.Outcome.fault.inj h
      exact sessionFor_fault ((sessionStep_of_insidePass hd hrun).trans (by rw [hstep, after_fault])) k
    | refused r =>
      rw [runFor_refused hstep] at h
      cases h

/-! ### The statements about the step inside a pass -/

/-- Settles O13: the step is the interpreter's, and the interpreter runs what was decoded. -/
theorem stepRunsTheDecodedInstruction : Obligations.StepRunsTheDecodedInstruction := by
  intro s i rest hs hdecode
  rw [step_of_interpreting hs, interpretStep_of_fetch (fetch_of_decode hdecode)]

/-- Settles O53: one step through `Session.after`, whole runs by induction on the number of steps. -/
theorem sessionRunsThePassOfTheMachine : Obligations.SessionRunsThePassOfTheMachine := by
  intro p hd hrun
  have hafter := sessionStep_of_insidePass hd hrun
  refine ⟨⟨fun t => sessionStep_next_of_step hd hrun, fun f => ?_, fun r => ?_⟩,
    fun k t => sessionFor_of_runFor k hd hrun, fun k f => sessionFor_fault_of_runFor k hd hrun⟩
  · rw [hafter, after_eq_fault_iff]
  · rw [hafter, after_eq_refused_iff]

end Sys2Proof.Machine

/-! SUPPORT. The moves of the host (R16): when they are refused, what they do, and that they keep the session's
invariant. -/

namespace Sys2Proof.Machine

/-! ### The length of a stream the Cursor can address -/

/-- R21: for a stream at `0 .. L-1`, addressable means that it is not too long. -/
theorem Memory.fits_iff_of_contiguous {m : Memory} (h : m.contiguous) :
    m.fits = true ↔ m.length ≤ Config.maxStreamLength := by
  have hoffsets : m.fits = (List.range m.length).all fun a => decide (a < Config.maxStreamLength) := by
    rw [← h, List.all_map]
    rfl
  simp only [hoffsets, List.all_eq_true, List.mem_range, decide_eq_true_eq]
  constructor
  · intro hall
    by_contra hlong
    exact absurd (hall Config.maxStreamLength (by omega)) (lt_irrefl _)
  · intro hlen a ha
    omega

theorem Memory.ofBytes_fits_iff (bs : List Byte) :
    (Memory.ofBytes bs).fits = true ↔ bs.length ≤ Config.maxStreamLength := by
  rw [Memory.fits_iff_of_contiguous (Memory.ofBytes_contiguous bs), Memory.ofBytes_length]

/-! ### When the host may move -/

theorem hostMove_of_awaitsHost {move : Session → Host.Outcome Session Fault Refusal} {p : Session}
    (h : awaitsHost p = true) : hostMove move p = move p := by
  simp [hostMove, h]

theorem hostMove_of_not_awaitsHost {move : Session → Host.Outcome Session Fault Refusal} {p : Session}
    (h : awaitsHost p = false) : hostMove move p = .refused .playbackInProgress := by
  simp [hostMove, h]

theorem hostMove_next {move : Session → Host.Outcome Session Fault Refusal} {p q : Session}
    (h : hostMove move p = .next q) : awaitsHost p = true ∧ move p = .next q := by
  cases hp : awaitsHost p with
  | true => exact ⟨rfl, by rwa [hostMove_of_awaitsHost hp] at h⟩
  | false =>
    rw [hostMove_of_not_awaitsHost hp] at h
    cases h

theorem supplyStream_next {bs : List Byte} {p q : Session} (h : supplyStream bs p = .next q) :
    awaitsHost p = true ∧ bs.length ≤ Config.maxStreamLength ∧ q = p.move p.driver (withStream bs) := by
  obtain ⟨hp, hmove⟩ := hostMove_next h
  split at hmove
  · rename_i hlen
    exact ⟨hp, hlen, (Host.Outcome.next.inj hmove).symm⟩
  · cases hmove

theorem startSession_next {p q : Session} (h : startSession p = .next q) :
    awaitsHost p = true ∧ q = p.move .configureBus id := by
  obtain ⟨hp, hmove⟩ := hostMove_next h
  exact ⟨hp, (Host.Outcome.next.inj hmove).symm⟩

theorem startPass_next {p q : Session} (h : startPass p = .next q) :
    awaitsHost p = true ∧ q = p.move .barePass beginPass := by
  obtain ⟨hp, hmove⟩ := hostMove_next h
  exact ⟨hp, (Host.Outcome.next.inj hmove).symm⟩

/-- While a pass runs the host is not waited for. -/
theorem awaitsHost_eq_false_of_running {p : Session} (hd : insidePass p = true) (hrun : p.run = .running) :
    awaitsHost p = false := by
  simp only [insidePass, Bool.or_eq_true, beq_iff_eq] at hd
  rcases hd with hd | hd <;> simp [awaitsHost, hd, hrun]

/-! ### The invariant -/

/-- Where the host may move the Cursor stands at 0: outside a pass by `SessionInv`, in a bare pass because it has stopped. -/
theorem SessionInv.cursor_of_awaitsHost {p : Session} (hp : SessionInv p) (h : awaitsHost p = true) : p.cursor = 0 := by
  cases hd : insidePass p with
  | false => exact hp.cursorRestarts hd
  | true =>
    cases hrun : p.run with
    | stopped => exact hp.boundary.stoppedRestarts hrun
    | running =>
      rw [awaitsHost_eq_false_of_running hd hrun] at h
      cases h

theorem BoundaryInv.withStream {s : State} (hs : BoundaryInv s) (hcursor : s.cursor = 0) {bs : List Byte}
    (hlen : bs.length ≤ Config.maxStreamLength) : BoundaryInv (withStream bs s) :=
  { hs with
    streamContiguous := Memory.ofBytes_contiguous bs
    streamFits := (Memory.ofBytes_fits_iff bs).2 hlen
    cursorInStream := by rw [withStream_cursor, hcursor]; exact Nat.zero_le _ }

theorem BoundaryInv.beginPass {s : State} (hs : BoundaryInv s) : BoundaryInv (beginPass s) :=
  { hs with stoppedRestarts := fun h => by cases h }

theorem SessionInv.hostReset {p : Session} (hp : SessionInv p) : SessionInv (hostReset p) where
  boundary :=
    { streamContiguous := hp.boundary.streamContiguous
      streamFits := hp.boundary.streamFits
      cursorInStream := Nat.zero_le _
      stoppedRestarts := fun _ => rfl
      writeEnableIdle := rfl
      chipSelectIdle := rfl
      timerIdle := rfl
      noFault := rfl }
  cursorRestarts := fun _ => rfl

/-! ### The statements about the host -/

/-- Settles O45: a move is refused unless the host is waited for, and then it is what the model's equation says. -/
theorem hostMovesWaitForPlayback : Obligations.HostMovesWaitForPlayback := by
  intro p bs
  refine ⟨fun h => ?_, fun h => ?_, fun hd hs => ?_⟩
  · exact ⟨hostMove_of_not_awaitsHost h, hostMove_of_not_awaitsHost h, hostMove_of_not_awaitsHost h⟩
  · refine ⟨fun hlen => ?_, fun hlen => ?_, hostMove_of_awaitsHost h, hostMove_of_awaitsHost h⟩
    · exact (hostMove_of_awaitsHost h).trans (if_pos hlen)
    · exact (hostMove_of_awaitsHost h).trans (if_neg (Nat.not_le.2 hlen))
  · exact awaitsHost_eq_false_of_running hd (interpreting_iff.1 hs).1

/-- Settles O46: a move is made only at Cursor 0, so a new stream or a new place of the agent keeps the invariant. -/
theorem hostMovesKeepSessionInv : Obligations.HostMovesKeepSessionInv := by
  intro p q bs hp
  refine ⟨fun h => ?_, fun h => ?_, fun h => ?_, hp.hostReset⟩
  · obtain ⟨hawaits, hlen, rfl⟩ := supplyStream_next h
    have hcursor := hp.cursor_of_awaitsHost hawaits
    exact ⟨hp.boundary.withStream hcursor hlen, fun _ => hcursor⟩
  · obtain ⟨hawaits, rfl⟩ := startSession_next h
    exact ⟨hp.boundary, fun _ => hp.cursor_of_awaitsHost hawaits⟩
  · obtain ⟨hawaits, rfl⟩ := startPass_next h
    exact ⟨hp.boundary.beginPass, fun _ => hp.cursor_of_awaitsHost hawaits⟩

end Sys2Proof.Machine

/-! SUPPORT. From bytes in the stream to the instruction fetched: encoded bytes at the Cursor decode to their instruction
(R43, R61 to R66). -/

namespace Sys2Proof

/-! ### Decoding what was encoded -/

theorem classify_waitn (k : BitVec 4) : classify (0x70 + k.setWidth 8) = .waitn k := by
  revert k
  decide

theorem classify_of_not_handled {op : Byte} (h : handledOpcode op = false) : classify op = .unhandled op := by
  simp only [handledOpcode, Bool.or_eq_false_iff, beq_eq_false_iff_ne] at h
  simp only [classify, h, if_false]

/-- R44: the two bytes of a count, low byte first, are the count. -/
theorem assemble16_bytes (n : Half) : assemble16 (n.setWidth 8) ((n >>> 8).setWidth 8) = n := by
  ext j hj
  by_cases hlow : j < 8
  · simp [assemble16, hlow, BitVec.getLsbD_eq_getElem hj]
  · have hhigh : j - 8 < 8 := by omega
    simp [assemble16, hlow, hhigh, show 8 + (j - 8) = j by omega, BitVec.getLsbD_eq_getElem hj]

theorem decode_encode_append {i : Instr} (hi : i.wf = true) (rest : List Byte) :
    decode (encode i ++ rest) = .ok (i, rest) := by
  cases i with
  | waitn k => simp only [encode, decode, List.cons_append, List.nil_append, classify_waitn]
  | wait16 n =>
    show Except.ok (Instr.wait16 (assemble16 _ _), rest) = _
    rw [assemble16_bytes]
  | unhandled op =>
    have hop : handledOpcode op = false := by simpa [Instr.wf] using hi
    simp [encode, decode, classify_of_not_handled hop]
  | _ => rfl

/-- R66: an encoding begins with an opcode byte that tells how long it is. -/
theorem exists_encode_eq_cons {i : Instr} (hi : i.wf = true) :
    ∃ op operands, encode i = op :: operands ∧ instrLength op = operands.length + 1 := by
  cases i with
  | waitn k => exact ⟨_, [], rfl, by rw [instrLength, classify_waitn]; rfl⟩
  | unhandled op =>
    have hop : handledOpcode op = false := by simpa [Instr.wf] using hi
    exact ⟨op, [], rfl, by rw [instrLength, classify_of_not_handled hop]; rfl⟩
  | _ => exact ⟨_, _, rfl, rfl⟩

end Sys2Proof

namespace Sys2Proof.Machine

/-! ### Bytes in the stream -/

/-- R43: the stream holds these bytes at ascending offsets from `a`. -/
def BytesAt (m : Memory) (a : Nat) (bs : List Byte) : Prop :=
  ∀ (j : Nat) (b : Byte), bs[j]? = some b → m.read (a + j) = some b

theorem bytesAt_cons_iff {m : Memory} {a : Nat} {b : Byte} {bs : List Byte} :
    BytesAt m a (b :: bs) ↔ m.read a = some b ∧ BytesAt m (a + 1) bs := by
  constructor
  · intro h
    refine ⟨h 0 b rfl, fun j c hc => ?_⟩
    have hj : a + 1 + j = a + (j + 1) := by omega
    rw [hj]
    exact h (j + 1) c hc
  · rintro ⟨hhead, htail⟩ j c hc
    cases j with
    | zero =>
      obtain rfl := Option.some.inj hc
      exact hhead
    | succ j =>
      have hj : a + (j + 1) = a + 1 + j := by omega
      rw [hj]
      exact htail j c hc

theorem bytesAt_append_iff {m : Memory} {a : Nat} {bs cs : List Byte} :
    BytesAt m a (bs ++ cs) ↔ BytesAt m a bs ∧ BytesAt m (a + bs.length) cs := by
  induction bs generalizing a with
  | nil => simp [BytesAt]
  | cons b bs ih =>
    have hlen : a + (b :: bs).length = a + 1 + bs.length := by simp; omega
    rw [List.cons_append, bytesAt_cons_iff, bytesAt_cons_iff, ih, hlen, and_assoc]

theorem Memory.read_cellsFrom (bs : List Byte) (base j : Nat) : (Memory.cellsFrom base bs).read (base + j) = bs[j]? := by
  induction bs generalizing base j with
  | nil => rfl
  | cons b bs ih =>
    cases j with
    | zero => simp [Memory.cellsFrom, Memory.read]
    | succ j =>
      have hj : base + (j + 1) = base + 1 + j := by omega
      have hne : base ≠ base + 1 + j := by omega
      rw [hj, Memory.cellsFrom, Memory.read, if_neg hne, ih]
      rfl

/-- R42: a read of a supplied stream. -/
theorem Memory.read_ofBytes (bs : List Byte) (a : Nat) : (Memory.ofBytes bs).read a = bs[a]? := by
  rw [Memory.ofBytes, ← Memory.read_cellsFrom bs 0 a, Nat.zero_add]

theorem bytesAt_ofBytes (bs : List Byte) : BytesAt (Memory.ofBytes bs) 0 bs := by
  intro j b h
  rw [Nat.zero_add, Memory.read_ofBytes, h]

theorem BytesAt.readRun {m : Memory} {a : Nat} {bs : List Byte} (h : BytesAt m a bs) : m.readRun a bs.length = bs := by
  induction bs generalizing a with
  | nil => rfl
  | cons b bs ih =>
    obtain ⟨hhead, htail⟩ := bytesAt_cons_iff.1 h
    simp [Memory.readRun, hhead, ih htail]

/-! ### Fetching an encoded instruction -/

theorem BytesAt.fetchBytes_encode {m : Memory} {c : Nat} {i : Instr} (hi : i.wf = true) (h : BytesAt m c (encode i)) :
    fetchBytes m c = encode i := by
  obtain ⟨op, operands, hencode, hlength⟩ := exists_encode_eq_cons hi
  rw [hencode] at h ⊢
  obtain ⟨hop, hoperands⟩ := bytesAt_cons_iff.1 h
  simp [fetchBytes, hop, hlength, hoperands.readRun]

theorem fetch_of_bytesAt {s : State} {i : Instr} (hi : i.wf = true) (h : BytesAt s.stream s.cursor (encode i)) :
    fetch s = .ok i := by
  have hdecode : decode (encode i) = .ok (i, []) := by simpa using decode_encode_append hi []
  exact fetch_of_decode ((h.fetchBytes_encode hi).symm ▸ hdecode)

end Sys2Proof.Machine

/-! SUPPORT. Instructions executed one after the other, up to the `END` that stops the pass (R48, R123), and the lines of
`Playback()` around the pass (R161). -/

namespace Sys2Proof.Machine

/-! ### An instruction that lets the pass go on -/

theorem wf_of_goesOn {i : Instr} (h : goesOn i = true) : i.wf = true := by
  cases i with
  | unhandled op => simp [goesOn, Instr.handled] at h
  | _ => rfl

theorem ne_endStream_of_goesOn {i : Instr} (h : goesOn i = true) : i ≠ .endStream := by
  rintro rfl
  simp [goesOn] at h

theorem cursorAfter_of_goesOn {i : Instr} (h : goesOn i = true) (c : Nat) : cursorAfter i c = c + (encode i).length := by
  cases i with
  | unhandled op => simp [goesOn, Instr.handled] at h
  | endStream => simp [goesOn] at h
  | _ => rfl

theorem writes_eventsOf_of_goesOn {i : Instr} (h : goesOn i = true) : writes (eventsOf i) = dataOf i := by
  cases i with
  | endStream => simp [goesOn] at h
  | psgw d => exact writes_transaction d
  | unhandled op => rfl
  | _ => exact writes_singleton _

/-! ### Several instructions -/

/-- The state that instructions executed one after the other leave. -/
def afterAll : List Instr → State → State
  | [], s => s
  | i :: rest, s => afterAll rest (afterInstr i s)

@[simp] theorem afterAll_stream (is : List Instr) (s : State) : (afterAll is s).stream = s.stream := by
  induction is generalizing s with
  | nil => rfl
  | cons i rest ih => simp [afterAll, ih]

@[simp] theorem afterAll_fault (is : List Instr) (s : State) : (afterAll is s).fault = s.fault := by
  induction is generalizing s with
  | nil => rfl
  | cons i rest ih => simp [afterAll, ih]

theorem busEffect_afterAll (is : List Instr) (s : State) : BusEffect (eventsOfAll is) s (afterAll is s) := by
  induction is generalizing s with
  | nil => exact .refl s
  | cons i rest ih => exact (busEffect_afterInstr i s).trans (ih _)

theorem busTrace_eventsOfAll (is : List Instr) : BusTrace (eventsOfAll is) :=
  (busEffect_afterAll is State.reset).disciplined

theorem writes_eventsOfAll {is : List Instr} (h : ∀ i ∈ is, goesOn i = true) :
    writes (eventsOfAll is) = dataBytes is := by
  induction is with
  | nil => rfl
  | cons i rest ih =>
    obtain ⟨hi, hrest⟩ := List.forall_mem_cons.1 h
    rw [eventsOfAll, (busTrace_eventsOf i).writes_append (busTrace_eventsOfAll rest), writes_eventsOf_of_goesOn hi,
      ih hrest, dataBytes]

theorem elapsed_eventsOfAll (is : List Instr) : elapsed (eventsOfAll is) = totalRequestedUs is := by
  induction is with
  | nil => rfl
  | cons i rest ih => rw [eventsOfAll, elapsed_append, elapsed_eventsOf, ih, totalRequestedUs]

/-- R48, R165: a running pass executes the instructions that stand at the Cursor, one a step, and goes on past them. -/
theorem runFor_encoded {is : List Instr} (h : ∀ i ∈ is, goesOn i = true) {s : State} (hs : Interpreting s)
    (hbytes : BytesAt s.stream s.cursor (encodeAll is)) :
    runFor is.length s = .next (afterAll is s) ∧ Interpreting (afterAll is s) ∧
      (afterAll is s).cursor = s.cursor + (encodeAll is).length := by
  induction is generalizing s with
  | nil => exact ⟨rfl, hs, rfl⟩
  | cons i rest ih =>
    obtain ⟨hi, hrest⟩ := List.forall_mem_cons.1 h
    obtain ⟨hhead, htail⟩ := bytesAt_append_iff.1 hbytes
    have hstep : step s = .next (afterInstr i s) := step_of_fetch hs (fetch_of_bytesAt (wf_of_goesOn hi) hhead)
    have hcursor : (afterInstr i s).cursor = s.cursor + (encode i).length := by
      rw [afterInstr_cursor, cursorAfter_of_goesOn hi]
    have hnext : BytesAt (afterInstr i s).stream (afterInstr i s).cursor (encodeAll rest) := by
      rwa [afterInstr_stream, hcursor]
    obtain ⟨hrun, hinterpreting, hend⟩ := ih hrest (hs.afterInstr (ne_endStream_of_goesOn hi)) hnext
    refine ⟨?_, hinterpreting, ?_⟩
    · rw [List.length_cons, runFor_next hstep, hrun, afterAll]
    · rw [afterAll, hend, hcursor, encodeAll, List.length_append, Nat.add_assoc]

/-- R123: and then the `END` after them. -/
theorem step_afterAll_endStream {is : List Instr} (h : ∀ i ∈ is, goesOn i = true) {s : State} (hs : Interpreting s)
    {beyond : List Byte} (hbytes : BytesAt s.stream s.cursor (encodeAll is ++ 0x66 :: beyond)) :
    step (afterAll is s) = .next (afterInstr .endStream (afterAll is s)) := by
  obtain ⟨hbody, hend⟩ := bytesAt_append_iff.1 hbytes
  obtain ⟨-, hinterpreting, hcursor⟩ := runFor_encoded h hs hbody
  have hopcode : BytesAt (afterAll is s).stream (afterAll is s).cursor (encode .endStream) := by
    rw [afterAll_stream, hcursor]
    exact (bytesAt_append_iff (bs := [0x66]) (cs := beyond).1 hend).1
  exact step_of_fetch hinterpreting (fetch_of_bytesAt rfl hopcode)

/-! ### The lines around the pass -/

/-- The five lines of `Playback()` from its beginning into the pass. -/
def openSession (p : Session) : Session :=
  driverEnterPass (driverSettle (driverInitialMute (driverForceCsIdle (driverConfigureBus p))))

/-- The two lines of `Playback()` after the pass. -/
def closeSession (p : Session) : Session := driverSignalDone (driverFinalMute p)

/-- The events before the pass. -/
def openingEvents : List Event := [.busConfig, .cs .idle] ++ muteEvents ++ [.delay 500000]

/-- The events after the pass. -/
def closingEvents : List Event := muteEvents ++ [.done]

@[simp] theorem openSession_driver (p : Session) : (openSession p).driver = .sessionPass := rfl
@[simp] theorem openSession_run (p : Session) : (openSession p).run = .running := rfl
@[simp] theorem openSession_cursor (p : Session) : (openSession p).cursor = p.cursor := by simp [openSession]
@[simp] theorem openSession_stream (p : Session) : (openSession p).stream = p.stream := by simp [openSession]
@[simp] theorem openSession_fault (p : Session) : (openSession p).fault = p.fault := by simp [openSession]

@[simp] theorem closeSession_driver (p : Session) : (closeSession p).driver = .idle := rfl
@[simp] theorem closeSession_run (p : Session) : (closeSession p).run = p.run := by simp [closeSession]
@[simp] theorem closeSession_cursor (p : Session) : (closeSession p).cursor = p.cursor := by simp [closeSession]
@[simp] theorem closeSession_fault (p : Session) : (closeSession p).fault = p.fault := by simp [closeSession]

theorem sessionStep_eq_driverLine {p : Session} (hfits : p.stream.fits = true) (hfault : p.fault = none) :
    sessionStep p = driverLine p := by
  simp [sessionStep, hfits, hfault]

theorem sessionFor_openSession {p : Session} (hd : p.driver = .configureBus) (hfits : p.stream.fits = true)
    (hfault : p.fault = none) : sessionFor 5 p = .next (openSession p) := by
  simp [stepsOf, sessionStep_eq_driverLine, driverLine, hd, hfits, hfault, openSession]

theorem sessionFor_closeSession {p : Session} (hd : p.driver = .sessionPass) (hrun : p.run = .stopped)
    (hfits : p.stream.fits = true) (hfault : p.fault = none) : sessionFor 2 p = .next (closeSession p) := by
  simp [stepsOf, sessionStep_eq_driverLine, driverLine, sessionTurn, hd, hrun, hfits, hfault, closeSession]

theorem busEffect_openSession (p : Session) : BusEffect openingEvents p.toState (openSession p).toState :=
  ((((busEffect_emit_busConfig _).trans (busEffect_driveCs_idle _)).trans (busEffect_silenceAllChannels _)).trans
    (busEffect_delay 500000 _)).trans (busEffect_beginPass _)

theorem busEffect_closeSession (p : Session) : BusEffect closingEvents p.toState (closeSession p).toState :=
  (busEffect_silenceAllChannels _).trans (busEffect_emit_done _)

/-! ### A whole session -/

/-- The session a pass over these instructions and the `END` after them leaves, before the last lines of `Playback()`. -/
def afterPass (is : List Instr) (p : Session) : Session :=
  { toState := afterInstr .endStream (afterAll is p.toState), driver := .sessionPass }

/-- The pass of a session that has entered it, in one step an instruction. -/
theorem sessionFor_afterPass {is : List Instr} (h : ∀ i ∈ is, goesOn i = true) {p : Session} {beyond : List Byte}
    (hd : p.driver = .sessionPass) (hp : Interpreting p.toState)
    (hbytes : BytesAt p.stream p.cursor (encodeAll is ++ 0x66 :: beyond)) :
    sessionFor (is.length + 1) p = .next (afterPass is p) := by
  obtain ⟨hbody, hinterpreting, -⟩ := runFor_encoded h hp (bytesAt_append_iff.1 hbytes).1
  have hinside : insidePass p = true := by simp [insidePass, hd]
  obtain ⟨j, -, hj, hfor⟩ := sessionFor_of_runFor is.length hinside (interpreting_iff.1 hp).1 hbody
  have hrunning := (interpreting_iff.1 hinterpreting).1
  obtain rfl := hj hrunning
  rw [hd] at hfor
  rw [sessionFor_add _ _ hfor]
  exact sessionFor_next (sessionStep_next_of_step rfl hrunning (step_afterAll_endStream h hp hbytes)) 0

/-- R161: a session over a well-formed stream, from the first line of `Playback()` to its last. -/
theorem sessionFor_wellFormed {is : List Instr} (h : ∀ i ∈ is, goesOn i = true) {p : Session} {beyond : List Byte}
    (hd : p.driver = .configureBus) (hcursor : p.cursor = 0) (hfault : p.fault = none) (hfits : p.stream.fits = true)
    (hstream : p.stream = Memory.ofBytes (encodeAll is ++ 0x66 :: beyond)) :
    sessionFor (is.length + 8) p = .next (closeSession (afterPass is (openSession p))) := by
  have hopen : Interpreting (openSession p).toState := interpreting_iff.2 ⟨rfl, by simp [hfault], by simp [hfits]⟩
  have hbytes : BytesAt (openSession p).stream (openSession p).cursor (encodeAll is ++ 0x66 :: beyond) := by
    rw [openSession_stream, openSession_cursor, hcursor, hstream]
    exact bytesAt_ofBytes _
  have hclose : sessionFor 2 (afterPass is (openSession p)) = .next (closeSession (afterPass is (openSession p))) :=
    sessionFor_closeSession rfl rfl (by simp [afterPass, hfits]) (by simp [afterPass, hfault])
  have hcount : is.length + 8 = 5 + (is.length + 1 + 2) := by omega
  rw [hcount, sessionFor_add _ _ (sessionFor_openSession hd hfits hfault),
    sessionFor_add _ _ (sessionFor_afterPass h rfl hopen hbytes), hclose]

theorem busEffect_session (is : List Instr) (p : Session) :
    BusEffect (openingEvents ++ (eventsOfAll is ++ eventsOf .endStream) ++ closingEvents) p.toState
      (closeSession (afterPass is (openSession p))).toState :=
  ((busEffect_openSession p).trans ((busEffect_afterAll is _).trans (busEffect_afterInstr .endStream _))).trans
    (busEffect_closeSession (afterPass is (openSession p)))

/-- R170: what the PSG accepts over a session: the mute, the data, and the mute twice. -/
theorem writes_sessionEvents {is : List Instr} (h : ∀ i ∈ is, goesOn i = true) :
    writes (openingEvents ++ (eventsOfAll is ++ eventsOf .endStream) ++ closingEvents) =
      muteBytes ++ (dataBytes is ++ muteBytes) ++ muteBytes := by
  have hopening : BusTrace openingEvents := (busEffect_openSession Session.reset).disciplined
  have hclosing : BusTrace closingEvents := (busEffect_closeSession Session.reset).disciplined
  have hbody := busTrace_eventsOfAll is
  have hend := busTrace_eventsOf .endStream
  have hpass := hbody.append hend
  rw [(hopening.append hpass).writes_append hclosing, hopening.writes_append hpass, hbody.writes_append hend,
    writes_eventsOfAll h]
  rfl

/-- R162: the time a session requests. -/
theorem elapsed_sessionEvents (is : List Instr) :
    elapsed (openingEvents ++ (eventsOfAll is ++ eventsOf .endStream) ++ closingEvents) =
      92 + 500000 + (totalRequestedUs is + 2000092) + 92 := by
  have hopening : elapsed openingEvents = 92 + 500000 := rfl
  have hclosing : elapsed closingEvents = 92 := rfl
  rw [elapsed_append, elapsed_append, elapsed_append, elapsed_eventsOfAll, elapsed_eventsOf, hopening, hclosing,
    requestedUs]

/-- Settles O49: the five opening lines, the pass, and the two closing lines, with their effects on the bus composed. -/
theorem wellFormedSessionPlaysToDone : Obligations.WellFormedSessionPlaysToDone := by
  intro p is beyond hd hcursor hfault hfits hgo hstream
  have heffect := busEffect_session is p
  refine ⟨_, sessionFor_wellFormed hgo hd hcursor hfault hfits hstream, ?_, ?_, ?_, ?_, fun hp => ?_, ?_⟩
  · simp [isFinal, afterPass, hfault]
  · simp [afterPass, cursorAfter]
  · rw [heffect.trace]
    simp [openingEvents, closingEvents, eventsOf]
  · rw [heffect.psgLog, writes_sessionEvents hgo]
    simp
  · rw [heffect.writes_trace hp, writes_sessionEvents hgo]
    simp
  · rw [heffect.elapsed_trace, elapsed_sessionEvents]

end Sys2Proof.Machine

/-! SUPPORT. The phase machine (R35): the bytes an instruction was fetched from decide which phases it goes through, and the
phases end at the next instruction boundary in the state of the atomic step (R11, R29). -/

namespace Sys2Proof.Machine

/-! ### The bytes behind a fetched instruction -/

/-- Behind the opcode byte `op` at the offset `c`, which operand reads make up the instruction: those of its class. -/
inductive ReadsAs (m : Memory) (c : Nat) (op : Byte) : Instr → Prop where
  | waitn {k : BitVec 4} (hclass : classify op = .waitn k) : ReadsAs m c op (.waitn k)
  | psgw {d : Byte} (hclass : classify op = .psgw) (hd : m.read (c + 1) = some d) : ReadsAs m c op (.psgw d)
  | wait16 {lo hi : Byte} (hclass : classify op = .wait16) (hlo : m.read (c + 1) = some lo)
      (hhi : m.read (c + 2) = some hi) : ReadsAs m c op (.wait16 (assemble16 lo hi))
  | wait735 (hclass : classify op = .wait735) : ReadsAs m c op .wait735
  | wait882 (hclass : classify op = .wait882) : ReadsAs m c op .wait882
  | endStream (hclass : classify op = .endStream) : ReadsAs m c op .endStream
  | unhandled {op' : Byte} (hclass : classify op = .unhandled op') : ReadsAs m c op (.unhandled op')

theorem fetchBytes_of_read {m : Memory} {c : Nat} {op : Byte} (h : m.read c = some op) :
    fetchBytes m c = op :: m.readRun (c + 1) ((classify op).length - 1) := by
  simp only [fetchBytes, h, instrLength]

theorem fetchBytes_of_read_none {m : Memory} {c : Nat} (h : m.read c = none) : fetchBytes m c = [] := by
  simp only [fetchBytes, h]

/-- R65, R66: the class of the opcode byte tells which operand bytes were read with it. -/
theorem readsAs_of_fetch {s : State} {i : Instr} (h : fetch s = .ok i) :
    ∃ op, s.stream.read s.cursor = some op ∧ ReadsAs s.stream s.cursor op i := by
  rw [fetch] at h
  cases hop : s.stream.read s.cursor with
  | none =>
    rw [fetchBytes_of_read_none hop] at h
    cases h
  | some op =>
    rw [fetchBytes_of_read hop] at h
    refine ⟨op, rfl, ?_⟩
    cases hclass : classify op with
    | psgw =>
      cases hd : s.stream.read (s.cursor + 1) <;>
        simp only [decode, hclass, OpClass.length, Memory.readRun, hd] at h <;> cases h
      exact .psgw hclass hd
    | wait16 =>
      cases hlo : s.stream.read (s.cursor + 1) <;> cases hhi : s.stream.read (s.cursor + 2) <;>
        simp only [decode, hclass, OpClass.length, Memory.readRun, hlo, hhi] at h <;> cases h
      exact .wait16 hclass hlo hhi
    | waitn k =>
      simp only [decode, hclass] at h
      cases h
      exact .waitn hclass
    | wait735 =>
      simp only [decode, hclass] at h
      cases h
      exact .wait735 hclass
    | wait882 =>
      simp only [decode, hclass] at h
      cases h
      exact .wait882 hclass
    | endStream =>
      simp only [decode, hclass] at h
      cases h
      exact .endStream hclass
    | unhandled op' =>
      simp only [decode, hclass] at h
      cases h
      exact .unhandled hclass

/-! ### Phases between two boundaries -/

/-- One phase that does not begin at an instruction boundary. -/
def InnerPhase (p q : PhaseState) : Prop := p.atBoundary = false ∧ phaseStep p = .next q

/-- The phase register may be replaced by the phase it is known to hold, so that the phase computes. -/
theorem innerPhase_of_phase {p q : PhaseState} {ph : Phase} (hp : p.phase = ph)
    (h : InnerPhase { p with phase := ph } q) : InnerPhase p q := by
  subst hp
  exact h

/-- So many such phases. -/
abbrev InnerPhases : PhaseState → PhaseState → Prop := Relation.ReflTransGen InnerPhase

theorem phaseRun_next {p q : PhaseState} (h : phaseStep p = .next q) (n : Nat) : phaseRun (n + 1) p = phaseRun n q := by
  simp [phaseRun, h]

/-- Inner phases are a run of the phase machine that meets no boundary before its end. -/
theorem InnerPhases.exists_phaseRun {p r : PhaseState} (h : InnerPhases p r) :
    ∃ n, phaseRun n p = .next r ∧ ∀ m q, m < n → phaseRun m p = .next q → q.atBoundary = false := by
  induction h using Relation.ReflTransGen.head_induction_on with
  | refl => exact ⟨0, rfl, fun m q hm => absurd hm (Nat.not_lt_zero m)⟩
  | head hstep _ ih =>
    obtain ⟨hinner, hnext⟩ := hstep
    obtain ⟨n, hrun, hbefore⟩ := ih
    refine ⟨n + 1, (phaseRun_next hnext n).trans hrun, fun m q hm hq => ?_⟩
    cases m with
    | zero =>
      obtain rfl := Host.Outcome.next.inj hq
      exact hinner
    | succ m => exact hbefore m q (Nat.lt_of_succ_lt_succ hm) ((phaseRun_next hnext m).symm.trans hq)

/-! ### The timer counting down -/

theorem tickTimer_of_ne_zero {s : State} (h : s.dly ≠ 0) : tickTimer s = { s with dly := s.dly - 1 } := if_neg h

/-- R30: a tick of a running counter takes 1 from it. -/
theorem tickTimer_dly_toNat {s : State} (h : s.dly ≠ 0) : (tickTimer s).dly.toNat = s.dly.toNat - 1 := by
  have hpos : s.dly.toNat ≠ 0 := fun h0 => h (BitVec.eq_of_toNat_eq h0)
  have hge : (1 : BitVec 32) ≤ s.dly := BitVec.le_def.2 (Nat.one_le_iff_ne_zero.2 hpos)
  rw [tickTimer_of_ne_zero h]
  exact BitVec.toNat_sub_of_le hge

theorem drainTimer_tickTimer (s : State) : drainTimer (tickTimer s) = drainTimer s := by
  unfold tickTimer
  split <;> rfl

/-- The phases in which the counter runs. -/
def Phase.counts (ph : Phase) : Prop := ph = .waitCount ∨ ph = .endPauseCount

theorem innerPhase_tick {p : PhaseState} (hp : p.phase.counts) (hdly : p.base.dly ≠ 0) :
    InnerPhase p { p with base := tickTimer p.base } := by
  rcases hp with hp | hp <;>
    exact ⟨by simp [PhaseState.atBoundary, hp], by simp only [phaseStep, hp, phaseCount, if_neg hdly]⟩

/-- R30: the counter runs to 0, tick by tick, and nothing else changes. -/
theorem innerPhases_drain {p : PhaseState} (hp : p.phase.counts) : InnerPhases p { p with base := drainTimer p.base } := by
  induction hn : p.base.dly.toNat generalizing p with
  | zero =>
    have hdly : p.base.dly = 0 := BitVec.eq_of_toNat_eq hn
    have hdrained : drainTimer p.base = p.base := by rw [drainTimer, ← hdly]
    rw [hdrained]
  | succ n ih =>
    have hdly : p.base.dly ≠ 0 := fun h => by simp [h] at hn
    have htick : (tickTimer p.base).dly.toNat = n := by rw [tickTimer_dly_toNat hdly, hn, Nat.add_sub_cancel]
    exact drainTimer_tickTimer p.base ▸
      (ih (p := { p with base := tickTimer p.base }) hp htick).head (innerPhase_tick hp hdly)

/-- From `WAIT`: the delay, and the next boundary. -/
theorem innerPhases_wait {p : PhaseState} (hp : p.phase = .wait) :
    InnerPhases p { p with base := delay (latchedDelay p) p.base, phase := .fetch } := by
  have hload : InnerPhase p { p with base := beginDelay (latchedDelay p) p.base, phase := .waitCount } :=
    innerPhase_of_phase hp ⟨rfl, rfl⟩
  have hcount := innerPhases_drain (p := { p with base := beginDelay (latchedDelay p) p.base, phase := .waitCount })
    (.inl rfl)
  exact (hcount.head hload).tail ⟨rfl, rfl⟩

/-- From `END_MUTE`: the bytes left, one write transaction a phase. -/
theorem innerPhases_mute (left : List Byte) {p : PhaseState} (hp : p.phase = .endMute left) :
    InnerPhases p { p with base := sendAll left p.base, phase := .endPause } := by
  induction left generalizing p with
  | nil => exact .single (innerPhase_of_phase hp ⟨rfl, rfl⟩)
  | cons b left ih =>
    exact (ih (p := { p with base := sendByte b p.base, phase := .endMute left }) rfl).head
      (innerPhase_of_phase hp ⟨rfl, rfl⟩)

/-- From `END_PAUSE`: the pause, and the stop. -/
theorem innerPhases_pause {p : PhaseState} (hp : p.phase = .endPause) :
    InnerPhases p { p with base := stopRun (delay Config.endPauseUs p.base), phase := .stopped } := by
  have hload : InnerPhase p { p with base := beginDelay Config.endPauseUs p.base, phase := .endPauseCount } :=
    innerPhase_of_phase hp ⟨rfl, rfl⟩
  have hcount := innerPhases_drain (p := { p with base := beginDelay Config.endPauseUs p.base, phase := .endPauseCount })
    (.inr rfl)
  exact (hcount.head hload).tail ⟨rfl, rfl⟩

/-! ### The phases of each class -/

/-- What the phases of an instruction have in common: from the phase after `DECODE` they lead to the boundary after it. -/
def PlaysOut (p : PhaseState) (s : State) : Prop := ∃ q, InnerPhases p q ∧ q.atBoundary = true ∧ q.base = s

/-- The waits of one byte: past the opcode, then the delay their opcode asks for. -/
theorem playsOut_adv1Wait {p : PhaseState} {us : Nat} (hp : p.phase = .adv1Wait) (hus : latchedDelay p = us) :
    PlaysOut p (delay us (advanceCursor 1 p.base)) := by
  subst hus
  exact ⟨_, (innerPhases_wait (p := { p with base := advanceCursor 1 p.base, phase := .wait }) rfl).head
    (innerPhase_of_phase hp ⟨rfl, rfl⟩), rfl, rfl⟩

theorem phaseRead_some {addr : Nat} {s : State} {b : Byte} (h : s.stream.read addr = some b)
    (use : Byte → PhaseState) : phaseRead addr s use = .next (use b) := by
  simp only [phaseRead, h]

theorem playsOut_operandD {p : PhaseState} {d : Byte} (hp : p.phase = .operandD)
    (hd : p.base.stream.read (p.base.cursor + 1) = some d) : PlaysOut p (afterInstr (.psgw d) p.base) := by
  have hread : InnerPhase p { p with base := advanceCursor 1 p.base, opd := d, phase := .write } :=
    innerPhase_of_phase hp ⟨rfl, phaseRead_some (s := advanceCursor 1 p.base) hd _⟩
  have hwrite : InnerPhase { p with base := advanceCursor 1 p.base, opd := d, phase := .write }
      { p with base := sendByte d (advanceCursor 1 p.base), opd := d, phase := .advAfterWrite } := ⟨rfl, rfl⟩
  exact ⟨_, ((Relation.ReflTransGen.single hread).tail hwrite).tail ⟨rfl, rfl⟩, rfl, rfl⟩

theorem playsOut_operandLo {p : PhaseState} {lo hi : Byte} (hp : p.phase = .operandLo)
    (hclass : classify p.ir = .wait16) (hlo : p.base.stream.read (p.base.cursor + 1) = some lo)
    (hhi : p.base.stream.read (p.base.cursor + 2) = some hi) :
    PlaysOut p (afterInstr (.wait16 (assemble16 lo hi)) p.base) := by
  have hreadLo : InnerPhase p { p with base := advanceCursor 1 p.base, lo := lo, phase := .operandHi } :=
    innerPhase_of_phase hp ⟨rfl, phaseRead_some (s := advanceCursor 1 p.base) hlo _⟩
  have hreadHi : InnerPhase { p with base := advanceCursor 1 p.base, lo := lo, phase := .operandHi }
      { p with base := advanceCursor 2 (advanceCursor 1 p.base), lo := lo, hi := hi, phase := .wait } :=
    ⟨rfl, phaseRead_some (s := advanceCursor 1 p.base) hhi _⟩
  refine ⟨_, ((Relation.ReflTransGen.single hreadLo).tail hreadHi).trans (innerPhases_wait rfl), rfl, ?_⟩
  simp only [latchedDelay, hclass]
  rfl

theorem playsOut_endReset {p : PhaseState} (hp : p.phase = .endReset) : PlaysOut p (afterInstr .endStream p.base) := by
  have hreset : InnerPhase p { p with base := setCursor 0 p.base, phase := .endMute Config.muteSeq } :=
    innerPhase_of_phase hp ⟨rfl, rfl⟩
  exact ⟨_, ((innerPhases_mute Config.muteSeq rfl).head hreset).trans (innerPhases_pause rfl), rfl, rfl⟩

/-- After the opcode has been read into `IR`, `DECODE` picks the phases of its class, and they do what the atomic step
does. -/
theorem playsOut_decode {p : PhaseState} {i : Instr} (hp : p.phase = .decode)
    (hi : ReadsAs p.base.stream p.base.cursor p.ir i) : PlaysOut p (afterInstr i p.base) := by
  suffices h : PlaysOut { p with phase := phaseAfterDecode p.ir } (afterInstr i p.base) by
    obtain ⟨q, hinner, hq⟩ := h
    exact ⟨q, hinner.head (innerPhase_of_phase hp ⟨rfl, rfl⟩), hq⟩
  cases hi with
  | waitn hclass =>
    exact playsOut_adv1Wait (by simp only [phaseAfterDecode, hclass]) (by simp only [latchedDelay, hclass])
  | psgw hclass hd =>
    exact playsOut_operandD (by simp only [phaseAfterDecode, hclass]) hd
  | wait16 hclass hlo hhi =>
    exact playsOut_operandLo (by simp only [phaseAfterDecode, hclass]) hclass hlo hhi
  | wait735 hclass =>
    exact playsOut_adv1Wait (by simp only [phaseAfterDecode, hclass]) (by simp only [latchedDelay, hclass])
  | wait882 hclass =>
    exact playsOut_adv1Wait (by simp only [phaseAfterDecode, hclass]) (by simp only [latchedDelay, hclass])
  | endStream hclass =>
    exact playsOut_endReset (by simp only [phaseAfterDecode, hclass])
  | unhandled hclass =>
    exact ⟨_, .refl, by simp [PhaseState.atBoundary, phaseAfterDecode, hclass], rfl⟩

/-- Settles O51: `FETCH` reads the opcode, and the phases after it meet no boundary before the one after the
instruction. -/
theorem phasesRefineTheAtomicStep : Obligations.PhasesRefineTheAtomicStep := by
  intro p i hp hfetch
  obtain ⟨op, hop, hreads⟩ := readsAs_of_fetch hfetch
  have hfirst : phaseStep p = .next { p with ir := op, phase := .decode } := by
    simp only [phaseStep, hp]
    exact phaseRead_some hop _
  obtain ⟨q, hinner, hboundary, hbase⟩ := playsOut_decode (p := { p with ir := op, phase := .decode }) rfl hreads
  obtain ⟨n, hrun, hbefore⟩ := hinner.exists_phaseRun
  refine ⟨n + 1, q, (phaseRun_next hfirst n).trans hrun, Nat.succ_pos n, hboundary, hbase ▸ exec_eq i p.base,
    fun m q' hpos hm hq' => ?_⟩
  obtain ⟨m, rfl⟩ := Nat.exists_eq_succ_of_ne_zero hpos.ne'
  exact hbefore m q' (Nat.lt_of_succ_lt_succ hm) ((phaseRun_next hfirst m).symm.trans hq')

end Sys2Proof.Machine

/-! SUPPORT. What one instruction does to the registers (R22, R25 to R33): the statements about a single `exec`, and about
the timer it waits on (R30). -/

namespace Sys2Proof.Machine

/-! ### What an instruction leaves alone -/

/-- R27, R28, R31, R32: only `PSGW` and `END` reach the outside. -/
theorem afterInstr_outside {i : Instr} (s : State) (hend : i ≠ .endStream) (hpsgw : ∀ d, i ≠ .psgw d) :
    (afterInstr i s).we = s.we ∧ (afterInstr i s).cs = s.cs ∧ (afterInstr i s).srOut = s.srOut ∧
      (afterInstr i s).psgLog = s.psgLog := by
  cases i with
  | psgw d => exact absurd rfl (hpsgw d)
  | endStream => exact absurd rfl hend
  | _ => exact ⟨rfl, rfl, rfl, rfl⟩

/-- R30: every instruction leaves the timer at 0 if it found it there. -/
theorem afterInstr_dly {i : Instr} {s : State} (h : s.dly = 0) : (afterInstr i s).dly = 0 := by
  cases i with
  | psgw d => simp [afterInstr]
  | unhandled op => exact h
  | _ => rfl

/-! ### The timer -/

theorem drainTimer_of_dly_eq_zero {s : State} (h : s.dly = 0) : drainTimer s = s := by
  rw [drainTimer, ← h]

theorem drainTimer_tickTimer_iterate (n : Nat) (s : State) : drainTimer (tickTimer^[n] s) = drainTimer s := by
  induction n with
  | zero => rfl
  | succ n ih => rw [Function.iterate_succ_apply', drainTimer_tickTimer, ih]

/-- R30: so many ticks take so much from the counter, as far as it goes. -/
theorem tickTimer_iterate_dly_toNat (n : Nat) (s : State) : (tickTimer^[n] s).dly.toNat = s.dly.toNat - n := by
  induction n with
  | zero => rfl
  | succ n ih =>
    rw [Function.iterate_succ_apply', ← Nat.sub_sub, ← ih]
    by_cases hdly : (tickTimer^[n] s).dly = 0
    · simp [tickTimer, hdly]
    · exact tickTimer_dly_toNat hdly

/-! ### The statements about one instruction -/

/-- Settles O9: a wait is the advance past it and one delay. -/
theorem waitsAdvanceTheCursorAndRequestOneDelay : Obligations.WaitsAdvanceTheCursorAndRequestOneDelay :=
  fun _ => ⟨fun _ => rfl, fun _ => rfl, rfl, rfl⟩

/-- Settles O10: field by field, through the laws of `sendByte`. -/
theorem psgwIssuesOneWriteTransaction : Obligations.PsgwIssuesOneWriteTransaction := by
  intro d s
  rw [exec_next_iff]
  ext1 <;> simp [afterInstr, dataByte, transaction, Config.unitUs]

/-- Settles O11: field by field, through the laws of `silenceAllChannels`. -/
theorem endMutesPausesAndStops : Obligations.EndMutesPausesAndStops := by
  intro s
  rw [exec_next_iff]
  ext1 <;> simp [afterInstr, muteEvents_eq, Config.muteSeq, Config.endPauseUs]

/-- Settles O12: the instruction has no effect. -/
theorem unhandledChangesNothing : Obligations.UnhandledChangesNothing := fun _ _ => rfl

/-- Settles O22: the registers by the laws of `afterInstr`, the events and the log by its effect on the bus. -/
theorem instructionFrame : Obligations.InstructionFrame := by
  intro i s t hexec
  obtain rfl := exec_next_iff.1 hexec
  have heffect := busEffect_afterInstr i s
  exact ⟨afterInstr_cursor i s, afterInstr_stream i s, fun a => by rw [afterInstr_stream], afterInstr_fault i s,
    afterInstr_run s, afterInstr_outside s, heffect.trace, heffect.psgLog⟩

/-- Settles O34: the ticks take the counter to 0, and the drain does not see them. -/
theorem tickingDownIsTheBlockingDelay : Obligations.TickingDownIsTheBlockingDelay := by
  intro s
  refine ⟨?_, fun j hj hzero => ?_, fun us hus => ?_⟩
  · have hzero : (tickTimer^[s.dly.toNat] s).dly = 0 :=
      BitVec.eq_of_toNat_eq (by rw [tickTimer_iterate_dly_toNat, Nat.sub_self]; rfl)
    rw [← drainTimer_tickTimer_iterate s.dly.toNat s, drainTimer_of_dly_eq_zero hzero]
  · have hleft : 0 = s.dly.toNat - j :=
      (congrArg BitVec.toNat hzero).symm.trans (tickTimer_iterate_dly_toNat j s)
    omega
  · rw [loadTimer_dly, BitVec.toNat_ofNat, Nat.mod_eq_of_lt hus]

end Sys2Proof.Machine

/-! SUPPORT. All that a step can do, of the machine and of the session: when it is refused and when it overruns (R21, R141),
and where the stream is read (R42, R43). -/

namespace Sys2Proof

theorem eq_of_classify_endStream {op : Byte} (h : classify op = .endStream) : op = 0x66 := by
  unfold classify at h
  split_ifs at h with _ _ _ _ _ hop
  exact hop

end Sys2Proof

namespace Sys2Proof.Machine

/-! ### Reads of a contiguous stream -/

theorem Memory.mem_offsets_of_read {m : Memory} {a : Nat} {b : Byte} (h : m.read a = some b) : a ∈ m.map Prod.fst := by
  induction m with
  | nil => cases h
  | cons c rest ih =>
    obtain ⟨k, v⟩ := c
    rw [Memory.read] at h
    split at h
    next hk => simp [hk]
    next => exact List.mem_cons_of_mem _ (ih h)

theorem Memory.lt_length_of_read {m : Memory} (hm : m.contiguous) {a : Nat} {b : Byte} (h : m.read a = some b) :
    a < m.length :=
  List.mem_range.1 (hm ▸ Memory.mem_offsets_of_read h)

/-- R106: the instruction that was read lies within the stream, so the Cursor after it does not exceed `L`. -/
theorem ReadsAs.cursorAfter_le {m : Memory} (hm : m.contiguous) {c : Nat} {op : Byte} {i : Instr}
    (hop : m.read c = some op) (hi : ReadsAs m c op i) : cursorAfter i c ≤ m.length := by
  have hc : c < m.length := Memory.lt_length_of_read hm hop
  cases hi with
  | psgw _ hd => exact Memory.lt_length_of_read hm hd
  | wait16 _ _ hhi => exact Memory.lt_length_of_read hm hhi
  | endStream _ => exact Nat.zero_le _
  | unhandled _ => exact hc.le
  | _ => exact hc

/-! ### Fetching -/

theorem exists_decode_of_fetch {s : State} {i : Instr} (h : fetch s = .ok i) :
    ∃ rest, decode (fetchBytes s.stream s.cursor) = .ok (i, rest) := by
  rw [fetch] at h
  cases hdecode : decode (fetchBytes s.stream s.cursor) with
  | ok r =>
    rw [hdecode] at h
    obtain rfl := Except.ok.inj h
    exact ⟨r.2, rfl⟩
  | error e =>
    rw [hdecode] at h
    cases h

theorem read_of_fetch_endStream {s : State} (h : fetch s = .ok .endStream) : s.stream.read s.cursor = some 0x66 := by
  obtain ⟨op, hop, hreads⟩ := readsAs_of_fetch h
  cases hreads with
  | endStream hclass => rw [hop, eq_of_classify_endStream hclass]

/-- R141, R144: which read misses its byte, and what was read before it. -/
inductive Misses (m : Memory) (c : Nat) : DecodeError → Prop where
  | noOpcode (hop : m.read c = none) : Misses m c .noOpcode
  | noData {op : Byte} (hop : m.read c = some op) (hclass : classify op = .psgw) (hd : m.read (c + 1) = none) :
      Misses m c .noData
  | noLow {op : Byte} (hop : m.read c = some op) (hclass : classify op = .wait16) (hlo : m.read (c + 1) = none) :
      Misses m c .noLow
  | noHigh {op lo : Byte} (hop : m.read c = some op) (hclass : classify op = .wait16)
      (hlo : m.read (c + 1) = some lo) (hhi : m.read (c + 2) = none) : Misses m c .noHigh

theorem misses_of_fetch {s : State} {e : DecodeError} (h : fetch s = .error e) : Misses s.stream s.cursor e := by
  rw [fetch] at h
  cases hop : s.stream.read s.cursor with
  | none =>
    rw [fetchBytes_of_read_none hop] at h
    cases h
    exact .noOpcode hop
  | some op =>
    rw [fetchBytes_of_read hop] at h
    cases hclass : classify op with
    | psgw =>
      cases hd : s.stream.read (s.cursor + 1) <;>
        simp only [decode, hclass, OpClass.length, Memory.readRun, hd] at h <;> cases h
      exact .noData hop hclass hd
    | wait16 =>
      cases hlo : s.stream.read (s.cursor + 1) with
      | none =>
        simp only [decode, hclass, OpClass.length, Memory.readRun, hlo] at h
        cases h
        exact .noLow hop hclass hlo
      | some lo =>
        cases hhi : s.stream.read (s.cursor + 2) <;>
          simp only [decode, hclass, OpClass.length, Memory.readRun, hlo, hhi] at h <;> cases h
        exact .noHigh hop hclass hlo hhi
    | _ =>
      simp only [decode, hclass] at h
      cases h

/-! ### The outcomes of the machine's step -/

theorem step_of_not_fits {s : State} (h : s.stream.fits = false) : step s = .refused .streamTooLong := by
  simp [step, passTurn, h]

/-- R33, R141: once `FAULT` is set no further step is taken. -/
theorem step_of_fault {s : State} {f : StreamOverrun} (hfits : s.stream.fits = true) (h : s.fault = some f) :
    step s = .fault (.streamOverrun f.addr s) := by
  simp [step, passTurn, hfits, h]

theorem step_of_fetch_error {s : State} {e : DecodeError} (hs : Interpreting s) (he : fetch s = .error e) :
    step s = fetchOverrun e s := by
  rw [step_of_interpreting hs, interpretStep, interpretWith, he]

/-- Whatever the state, one of these is its step. -/
inductive StepCase (s : State) : Prop where
  | unaddressable (hfits : s.stream.fits = false) (h : step s = .refused .streamTooLong)
  | faulted {f : StreamOverrun} (hfits : s.stream.fits = true) (hfault : s.fault = some f)
      (h : step s = .fault (.streamOverrun f.addr s))
  | stopped (hrun : s.run = .stopped) (hfits : s.stream.fits = true) (h : step s = .next s)
  | runs (hs : Interpreting s) {i : Instr} (hi : fetch s = .ok i) (h : step s = .next (afterInstr i s))
  | overruns (hs : Interpreting s) {e : DecodeError} (he : fetch s = .error e) (h : step s = fetchOverrun e s)

theorem stepCase (s : State) : StepCase s := by
  cases hfits : s.stream.fits with
  | false => exact .unaddressable hfits (step_of_not_fits hfits)
  | true =>
    cases hfault : s.fault with
    | some f => exact .faulted hfits hfault (step_of_fault hfits hfault)
    | none =>
      cases hrun : s.run with
      | stopped => exact .stopped hrun hfits (step_of_stopped hfits hfault hrun)
      | running =>
        have hs : Interpreting s := interpreting_iff.2 ⟨hrun, hfault, hfits⟩
        cases hfetch : fetch s with
        | ok i => exact .runs hs hfetch (step_of_fetch hs hfetch)
        | error e => exact .overruns hs hfetch (step_of_fetch_error hs hfetch)

theorem step_refused_iff {s : State} {r : Refusal} :
    step s = .refused r ↔ r = .streamTooLong ∧ s.stream.fits = false := by
  constructor
  · intro hr
    cases stepCase s with
    | unaddressable hfits h => exact ⟨Host.Outcome.refused.inj (hr.symm.trans h), hfits⟩
    | faulted _ _ h => cases hr.symm.trans h
    | stopped _ _ h => cases hr.symm.trans h
    | runs _ _ h => cases hr.symm.trans h
    | overruns _ _ h => cases hr.symm.trans h
  · rintro ⟨rfl, hfits⟩
    exact step_of_not_fits hfits

/-- R141: an overrun leaves a state whose stream the Cursor can address and whose `FAULT` names the offset. -/
theorem step_overrun {s t : State} {a : Nat} (ht : step s = .fault (.streamOverrun a t)) :
    t.stream.fits = true ∧ t.fault = some { addr := a } := by
  cases stepCase s with
  | unaddressable _ h => cases ht.symm.trans h
  | faulted hfits hfault h =>
    cases ht.symm.trans h
    exact ⟨hfits, hfault⟩
  | stopped _ _ h => cases ht.symm.trans h
  | runs _ _ h => cases ht.symm.trans h
  | overruns hs _ h =>
    cases ht.symm.trans h
    exact ⟨(interpreting_iff.1 hs).2.2, rfl⟩

/-! ### The lines of the session around the pass -/

/-- R161: the lines of the session's program but the instructions of a pass: at the place `d`, with `RUN` at `run`, the
agent runs `line` on the machine and stands at `d'`. -/
inductive DriverLine : (d : Driver) → (run : RunState) → (line : State → State) → (d' : Driver) → Prop where
  | configureBus {run} : DriverLine .configureBus run (emit .busConfig) .forceCsIdle
  | forceCsIdle {run} : DriverLine .forceCsIdle run (driveCs .idle) .initialMute
  | initialMute {run} : DriverLine .initialMute run silenceAllChannels .settle
  | settle {run} : DriverLine .settle run (delay Config.initSettleUs) .enterPass
  | enterPass {run} : DriverLine .enterPass run beginPass .sessionPass
  | finalMute : DriverLine .sessionPass .stopped silenceAllChannels .signalDone
  | signalDone {run} : DriverLine .signalDone run (emit .done) .idle
  | idle {run} : DriverLine .idle run id .idle
  | leaveBarePass : DriverLine .barePass .stopped id .idle

/-- The agent runs a line, or it is inside a running pass. -/
theorem exists_driverLine_or_insidePass (p : Session) :
    (∃ line d', DriverLine p.driver p.run line d') ∨ (insidePass p = true ∧ p.run = .running) := by
  unfold insidePass
  generalize p.driver = d
  generalize p.run = run
  cases d with
  | sessionPass =>
    cases run with
    | running => exact .inr ⟨rfl, rfl⟩
    | stopped => exact .inl ⟨_, _, .finalMute⟩
  | barePass =>
    cases run with
    | running => exact .inr ⟨rfl, rfl⟩
    | stopped => exact .inl ⟨_, _, .leaveBarePass⟩
  | configureBus => exact .inl ⟨_, _, .configureBus⟩
  | forceCsIdle => exact .inl ⟨_, _, .forceCsIdle⟩
  | initialMute => exact .inl ⟨_, _, .initialMute⟩
  | settle => exact .inl ⟨_, _, .settle⟩
  | enterPass => exact .inl ⟨_, _, .enterPass⟩
  | signalDone => exact .inl ⟨_, _, .signalDone⟩
  | idle => exact .inl ⟨_, _, .idle⟩

/-- A line is run outside the pass, or once the pass has stopped. -/
theorem DriverLine.outsidePass {p : Session} {line : State → State} {d' : Driver}
    (h : DriverLine p.driver p.run line d') : insidePass p = false ∨ p.run = .stopped := by
  unfold insidePass
  generalize p.driver = d at h ⊢
  generalize p.run = run at h ⊢
  cases h with
  | finalMute => exact .inr rfl
  | leaveBarePass => exact .inr rfl
  | _ => exact .inl rfl

theorem DriverLine.driverLine_eq {p : Session} {line : State → State} {d' : Driver}
    (h : DriverLine p.driver p.run line d') : driverLine p = .next (p.move d' line) := by
  unfold driverLine sessionTurn
  generalize hd : p.driver = d at h ⊢
  generalize p.run = run at h ⊢
  cases h with
  | idle => exact congrArg _ (Session.ext_iff.2 (by simp [hd]))
  | _ => rfl

/-! ### The outcomes of the session's step -/

theorem sessionStep_of_not_fits {p : Session} (h : p.stream.fits = false) : sessionStep p = .refused .streamTooLong := by
  simp [sessionStep, h]

/-- R33, R141: nor is any line run. -/
theorem sessionStep_of_fault {p : Session} {f : StreamOverrun} (hfits : p.stream.fits = true) (h : p.fault = some f) :
    sessionStep p = .fault (.streamOverrun f.addr p.toState) := by
  simp [sessionStep, hfits, h]

/-- The agent's line is run, unless what stops the machine stops the session. -/
theorem sessionStep_of_line {p : Session} {line : State → State} {d' : Driver} (h : DriverLine p.driver p.run line d') :
    (p.stream.fits = true ∧ p.fault = none ∧ sessionStep p = .next (p.move d' line)) ∨
      (sessionStep p = p.after (step p.toState) ∧ ∀ t, step p.toState ≠ .next t) := by
  cases hfits : p.stream.fits with
  | false =>
    rw [sessionStep_of_not_fits hfits, step_of_not_fits hfits]
    exact .inr ⟨rfl, nofun⟩
  | true =>
    cases hfault : p.fault with
    | none => exact .inl ⟨rfl, rfl, (sessionStep_eq_driverLine hfits hfault).trans h.driverLine_eq⟩
    | some f =>
      rw [sessionStep_of_fault hfits hfault, step_of_fault hfits hfault]
      exact .inr ⟨rfl, nofun⟩

/-- A step of the session is a line of its program, or what the machine does. -/
theorem sessionStep_cases (p : Session) :
    (∃ line d', DriverLine p.driver p.run line d' ∧ p.stream.fits = true ∧ p.fault = none ∧
      sessionStep p = .next (p.move d' line)) ∨
    (sessionStep p = p.after (step p.toState) ∧
      ∀ t, step p.toState = .next t → insidePass p = true ∧ p.run = .running) := by
  rcases exists_driverLine_or_insidePass p with ⟨line, d', hline⟩ | hinside
  · rcases sessionStep_of_line hline with ⟨hfits, hfault, h⟩ | ⟨h, hnone⟩
    · exact .inl ⟨line, d', hline, hfits, hfault, h⟩
    · exact .inr ⟨h, fun t ht => absurd ht (hnone t)⟩
  · exact .inr ⟨sessionStep_of_insidePass hinside.1 hinside.2, fun _ _ => hinside⟩

theorem after_eq_next {p q : Session} {o : Host.Outcome State Fault Refusal} (h : p.after o = .next q) :
    o = .next q.toState ∧ q.driver = p.driver := by
  cases o with
  | next t =>
    obtain rfl := Host.Outcome.next.inj h
    exact ⟨rfl, rfl⟩
  | fault f => cases h
  | refused r => cases h

/-- The next sessions of a step. -/
theorem sessionStep_next {p q : Session} (h : sessionStep p = .next q) :
    (∃ line d', DriverLine p.driver p.run line d' ∧ q = p.move d' line) ∨
    (insidePass p = true ∧ p.run = .running ∧ step p.toState = .next q.toState ∧ q.driver = p.driver) := by
  rcases sessionStep_cases p with ⟨line, d', hline, -, -, hnext⟩ | ⟨hafter, hinside⟩
  · exact .inl ⟨line, d', hline, Host.Outcome.next.inj (h.symm.trans hnext)⟩
  · obtain ⟨hstep, hd⟩ := after_eq_next (hafter.symm.trans h)
    obtain ⟨hpass, hrun⟩ := hinside _ hstep
    exact .inr ⟨hpass, hrun, hstep, hd⟩

/-- R141: a session overruns only where its machine does. -/
theorem step_fault_of_sessionStep {p : Session} {f : Fault} (h : sessionStep p = .fault f) :
    step p.toState = .fault f := by
  rcases sessionStep_cases p with ⟨_, _, -, -, -, hnext⟩ | ⟨hafter, -⟩
  · cases h.symm.trans hnext
  · exact (after_eq_fault_iff p _ f).1 (hafter.symm.trans h)

theorem sessionStep_refused_iff {p : Session} {r : Refusal} :
    sessionStep p = .refused r ↔ r = .streamTooLong ∧ p.stream.fits = false := by
  rcases sessionStep_cases p with ⟨_, _, -, hfits, -, hnext⟩ | ⟨hafter, -⟩
  · simp [hnext, hfits]
  · rw [hafter, after_eq_refused_iff, step_refused_iff]

/-! ### The statements about refusals and overruns -/

/-- Settles O29: of the outcomes of a step only one is a refusal. -/
theorem stepRefusesOnlyAnUnaddressableStream : Obligations.StepRefusesOnlyAnUnaddressableStream :=
  ⟨fun _ _ => step_refused_iff, fun _ _ => sessionStep_refused_iff⟩

/-- Settles O37: the state an overrun leaves answers it at once, and so in every longer run. -/
theorem anOverrunIsForEver : Obligations.AnOverrunIsForEver := by
  refine ⟨fun s t a h => ?_, fun p t a h => ?_⟩
  · obtain ⟨hfits, hfault⟩ := step_overrun h
    exact ⟨hfault, runFor_fault (step_of_fault hfits hfault)⟩
  · obtain ⟨hfits, hfault⟩ := step_overrun (step_fault_of_sessionStep h)
    exact ⟨hfault, fun d => sessionFor_fault (sessionStep_of_fault (p := { toState := t, driver := d }) hfits hfault)⟩

end Sys2Proof.Machine

/-! SUPPORT. Who writes the trace, `RUN` and the Cursor (R21, R25, R33): each fact is proved once of an instruction and once
of a line of the session, and `sessionStep_next` puts them together. -/

namespace Sys2Proof.Machine

/-! ### The lines of the session -/

section Lines

variable {d d' : Driver} {run : RunState} {line : State → State}

theorem DriverLine.cursor_eq (h : DriverLine d run line d') (s : State) : (line s).cursor = s.cursor := by
  cases h with
  | initialMute => exact silenceAllChannels_cursor s
  | finalMute => exact silenceAllChannels_cursor s
  | _ => rfl

theorem DriverLine.stream_eq (h : DriverLine d run line d') (s : State) : (line s).stream = s.stream := by
  cases h with
  | initialMute => exact silenceAllChannels_stream s
  | finalMute => exact silenceAllChannels_stream s
  | _ => rfl

theorem DriverLine.fault_eq (h : DriverLine d run line d') (s : State) : (line s).fault = s.fault := by
  cases h with
  | initialMute => exact silenceAllChannels_fault s
  | finalMute => exact silenceAllChannels_fault s
  | _ => rfl

/-- R25, R122: of all lines only the entry of a pass writes `RUN`. -/
theorem DriverLine.run_eq (h : DriverLine d run line d') :
    (∀ s, (line s).run = s.run) ∨ (d = .enterPass ∧ d' = .sessionPass ∧ ∀ s, (line s).run = .running) := by
  cases h with
  | enterPass => exact .inr ⟨rfl, rfl, fun _ => rfl⟩
  | initialMute => exact .inl silenceAllChannels_run
  | finalMute => exact .inl silenceAllChannels_run
  | _ => exact .inl fun _ => rfl

theorem DriverLine.dly_eq_zero (h : DriverLine d run line d') {s : State} (hs : s.dly = 0) : (line s).dly = 0 := by
  cases h with
  | initialMute => exact silenceAllChannels_dly s
  | finalMute => exact silenceAllChannels_dly s
  | settle => rfl
  | _ => exact hs

/-- What a line emits does not depend on the state. -/
theorem DriverLine.exists_busEffect (h : DriverLine d run line d') : ∃ ev, ∀ s, BusEffect ev s (line s) := by
  cases h with
  | configureBus => exact ⟨_, busEffect_emit_busConfig⟩
  | forceCsIdle => exact ⟨_, busEffect_driveCs_idle⟩
  | initialMute => exact ⟨_, busEffect_silenceAllChannels⟩
  | settle => exact ⟨_, busEffect_delay _⟩
  | enterPass => exact ⟨_, busEffect_beginPass⟩
  | finalMute => exact ⟨_, busEffect_silenceAllChannels⟩
  | signalDone => exact ⟨_, busEffect_emit_done⟩
  | idle => exact ⟨_, .refl⟩
  | leaveBarePass => exact ⟨_, .refl⟩

end Lines

/-! ### The trace and the log -/

theorem BusEffect.isPrefix {ev : List Event} {s t : State} (h : BusEffect ev s t) :
    s.trace.IsPrefix t.trace ∧ s.psgLog.IsPrefix t.psgLog :=
  ⟨⟨ev, h.trace.symm⟩, ⟨writes ev, h.psgLog.symm⟩⟩

/-- Settles O25: a step has an effect on the bus, and such an effect only appends. -/
theorem traceAndLogOnlyGrow : Obligations.TraceAndLogOnlyGrow := by
  rintro s t (h | ⟨p, q, rfl, rfl, h⟩)
  · obtain ⟨ev, heffect⟩ := step_busEffect h
    exact heffect.isPrefix
  · obtain ⟨ev, heffect⟩ := session_busEffect h
    exact heffect.isPrefix

/-! ### `RUN` and the Cursor -/

/-- R25: a step of the machine that writes `RUN` ran the `END` at the Cursor. -/
theorem step_run_ne {s t : State} (h : step s = .next t) (hrun : t.run ≠ s.run) :
    t.run = .stopped ∧ t.cursor = 0 ∧ Interpreting s ∧ s.stream.read s.cursor = some 0x66 := by
  obtain ⟨hfits, hfault, ⟨-, rfl⟩ | ⟨hrunning, i, hi, hexec⟩⟩ := step_next_cases h
  · exact absurd rfl hrun
  · obtain rfl := exec_next_iff.1 hexec
    obtain rfl : i = .endStream := by
      by_contra hend
      exact hrun (afterInstr_run s hend)
    exact ⟨rfl, afterInstr_cursor .endStream s, interpreting_iff.2 ⟨hrunning, hfault, hfits⟩,
      read_of_fetch_endStream hi⟩

/-- Settles O23: in the machine only `END`, in a session that or the line that enters the pass. -/
theorem onlyEndStopsAndOnlyAPassStarts : Obligations.OnlyEndStopsAndOnlyAPassStarts := by
  refine ⟨fun s t => step_run_ne, fun p q h hrun => ?_, fun s => rfl⟩
  rcases sessionStep_next h with ⟨line, d', hline, rfl⟩ | ⟨hinside, -, hstep, -⟩
  · rcases hline.run_eq with hsame | ⟨hd, rfl, hstart⟩
    · exact absurd (hsame p.toState) hrun
    · exact .inr ⟨hstart _, hline.cursor_eq _, hd, rfl⟩
  · obtain ⟨hstopped, hcursor, hs, hread⟩ := step_run_ne hstep hrun
    exact .inl ⟨hstopped, hcursor, hs, hinside, hread⟩

/-- R21: a step of the machine that moves the Cursor ran an instruction, and moved it as that instruction does. -/
theorem step_cursor_ne {s t : State} (h : step s = .next t) (hcursor : t.cursor ≠ s.cursor) :
    Interpreting s ∧ ∃ i rest, decode (fetchBytes s.stream s.cursor) = .ok (i, rest) ∧
      t.cursor = cursorAfter i s.cursor := by
  obtain ⟨hfits, hfault, ⟨-, rfl⟩ | ⟨hrunning, i, hi, hexec⟩⟩ := step_next_cases h
  · exact absurd rfl hcursor
  · obtain rfl := exec_next_iff.1 hexec
    obtain ⟨rest, hdecode⟩ := exists_decode_of_fetch hi
    exact ⟨interpreting_iff.2 ⟨hrunning, hfault, hfits⟩, i, rest, hdecode, afterInstr_cursor i s⟩

/-- Settles O24: no line of a session moves the Cursor, and inside the pass the machine does. -/
theorem onlyInstructionsMoveTheCursor : Obligations.OnlyInstructionsMoveTheCursor := by
  rintro s t (h | ⟨p, q, rfl, rfl, h⟩) hcursor
  · exact step_cursor_ne h hcursor
  · rcases sessionStep_next h with ⟨line, d', hline, rfl⟩ | ⟨-, -, hstep, -⟩
    · exact absurd (hline.cursor_eq _) hcursor
    · exact step_cursor_ne hstep hcursor

end Sys2Proof.Machine

/-! SUPPORT. The invariant of the instruction boundary: an instruction keeps it because its bytes lie within the stream
(R106), a line of the session because the Cursor stands at 0 there (R25, R122), and reset establishes it (R34, R160). -/

namespace Sys2Proof.Machine

theorem BusTrace.lastWe_eq_one {tr : List Event} (h : BusTrace tr) : lastWe 1 tr = 1 := by
  induction h using BusTrace.block_induction with
  | empty => rfl
  | append tr blk _ hblk ih =>
    rw [lastWe_append, ih]
    cases hblk <;> rfl

theorem BusTrace.lastCs_eq_idle {tr : List Event} (h : BusTrace tr) : lastCs .idle tr = .idle := by
  induction h using BusTrace.block_induction with
  | empty => rfl
  | append tr blk _ hblk ih =>
    rw [lastCs_append, ih]
    cases hblk <;> rfl

/-- R27, R28: whole blocks of events leave the pins idle. -/
theorem BusEffect.pins_idle {ev : List Event} {s t : State} (h : BusEffect ev s t) (hwe : s.we = 1) (hcs : s.cs = .idle) :
    t.we = 1 ∧ t.cs = .idle :=
  ⟨by rw [h.we, hwe, h.disciplined.lastWe_eq_one], by rw [h.cs, hcs, h.disciplined.lastCs_eq_idle]⟩

/-- An instruction read from the stream keeps the invariant: its bytes lie within the stream, and `END` restarts at 0. -/
theorem BoundaryInv.of_instr {s : State} {i : Instr} (hs : BoundaryInv s) (hrunning : s.run = .running)
    (hi : fetch s = .ok i) : BoundaryInv (afterInstr i s) := by
  obtain ⟨hwe, hcs⟩ := (busEffect_afterInstr i s).pins_idle hs.writeEnableIdle hs.chipSelectIdle
  obtain ⟨op, hop, hreads⟩ := readsAs_of_fetch hi
  refine
    { streamContiguous := by simpa using hs.streamContiguous
      streamFits := by simpa using hs.streamFits
      cursorInStream := by simpa using hreads.cursorAfter_le hs.streamContiguous hop
      stoppedRestarts := fun hstopped => ?_
      writeEnableIdle := hwe
      chipSelectIdle := hcs
      timerIdle := afterInstr_dly hs.timerIdle
      noFault := by simpa using hs.noFault }
  obtain rfl : i = .endStream := by
    by_contra hend
    rw [afterInstr_run s hend, hrunning] at hstopped
    cases hstopped
  exact afterInstr_cursor .endStream s

theorem BoundaryInv.of_step {s t : State} (hs : BoundaryInv s) (h : step s = .next t) : BoundaryInv t := by
  obtain ⟨-, -, ⟨-, rfl⟩ | ⟨hrunning, i, hi, hexec⟩⟩ := step_next_cases h
  · exact hs
  · exact exec_next_iff.1 hexec ▸ hs.of_instr hrunning hi

/-- A line run while the Cursor stands at 0 keeps the invariant. -/
theorem BoundaryInv.of_line {s : State} (hs : BoundaryInv s) (hcursor : s.cursor = 0) {d d' : Driver} {run : RunState}
    {line : State → State} (hline : DriverLine d run line d') : BoundaryInv (line s) := by
  obtain ⟨ev, heffect⟩ := hline.exists_busEffect
  obtain ⟨hwe, hcs⟩ := (heffect s).pins_idle hs.writeEnableIdle hs.chipSelectIdle
  have hzero : (line s).cursor = 0 := (hline.cursor_eq s).trans hcursor
  exact
    { streamContiguous := hline.stream_eq s ▸ hs.streamContiguous
      streamFits := hline.stream_eq s ▸ hs.streamFits
      cursorInStream := hzero ▸ Nat.zero_le _
      stoppedRestarts := fun _ => hzero
      writeEnableIdle := hwe
      chipSelectIdle := hcs
      timerIdle := hline.dly_eq_zero hs.timerIdle
      noFault := (hline.fault_eq s).trans hs.noFault }

/-- R25, R122: where a line is run the Cursor stands at 0: the pass has not begun, or has stopped. -/
theorem SessionInv.cursor_of_line {p : Session} (hp : SessionInv p) {line : State → State} {d' : Driver}
    (hline : DriverLine p.driver p.run line d') : p.cursor = 0 :=
  hline.outsidePass.elim hp.cursorRestarts hp.boundary.stoppedRestarts

theorem SessionInv.of_step {p q : Session} (hp : SessionInv p) (h : sessionStep p = .next q) : SessionInv q := by
  rcases sessionStep_next h with ⟨line, d', hline, rfl⟩ | ⟨hinside, -, hstep, hd⟩
  · have hcursor := hp.cursor_of_line hline
    exact ⟨hp.boundary.of_line hcursor hline, fun _ => (hline.cursor_eq _).trans hcursor⟩
  · refine ⟨hp.boundary.of_step hstep, fun houtside => ?_⟩
    rw [insidePass, hd] at houtside
    cases houtside.symm.trans hinside

/-- Settles O39: an instruction stays within the stream it was read from, and every line of a session is run at Cursor 0. -/
theorem stepKeepsBoundaryInv : Obligations.StepKeepsBoundaryInv :=
  ⟨fun _ _ => BoundaryInv.of_step, fun _ _ => SessionInv.of_step⟩

/-! ### Reset -/

theorem boundaryInv_reset : BoundaryInv State.reset where
  streamContiguous := rfl
  streamFits := rfl
  cursorInStream := le_rfl
  stoppedRestarts := fun h => by cases h
  writeEnableIdle := rfl
  chipSelectIdle := rfl
  timerIdle := rfl
  noFault := rfl

theorem busInv_reset : BusInv State.reset.srOut State.reset := ⟨.empty, rfl, rfl, rfl, rfl⟩

theorem sessionInv_reset : SessionInv Session.reset := ⟨boundaryInv_reset, fun _ => rfl⟩

theorem busEffect_withStream (bs : List Byte) (s : State) : BusEffect [] s (withStream bs s) :=
  .silent rfl rfl rfl rfl rfl

/-- Settles O41: reset has them, and the host's supply of a stream keeps them. -/
theorem resetHasBothInvariants : Obligations.ResetHasBothInvariants := by
  refine ⟨boundaryInv_reset, busInv_reset, sessionInv_reset, fun bs q h => ⟨?_, ?_⟩⟩
  · exact (hostMovesKeepSessionInv Session.reset q bs sessionInv_reset).1 h
  · obtain ⟨-, -, rfl⟩ := supplyStream_next h
    exact busInv_reset.of_effect (busEffect_withStream bs State.reset)

/-- Settles O44: the fields of the reset state. -/
theorem resetPutsTheSpecifiedValues : Obligations.ResetPutsTheSpecifiedValues :=
  ⟨rfl, rfl, rfl, rfl, rfl, rfl, rfl, rfl⟩

end Sys2Proof.Machine

/-! SUPPORT. Two runs with different pasts (R26, R51): the control registers pick the operation a step performs, and no
operation looks at what was written or waited before. -/

namespace Sys2Proof.Machine

/-- R26, R51: an operation whose work on the control registers, and whose events, depend on the control registers alone. -/
structure IgnoresPast (op : State → State) : Prop where
  control : ∀ {s t}, sameControl s t → sameControl (op s) (op t)
  effect  : ∃ ev, ∀ s, BusEffect ev s (op s)

/-- From states with the same control registers such an operation appends the same events and bytes. -/
theorem IgnoresPast.appends_same {op : State → State} (h : IgnoresPast op) (s t : State) :
    ∃ events bytes, (op s).trace = s.trace ++ events ∧ (op t).trace = t.trace ++ events ∧
      (op s).psgLog = s.psgLog ++ bytes ∧ (op t).psgLog = t.psgLog ++ bytes := by
  obtain ⟨ev, heffect⟩ := h.effect
  exact ⟨ev, writes ev, (heffect s).trace, (heffect t).trace, (heffect s).psgLog, (heffect t).psgLog⟩

theorem ignoresPast_id : IgnoresPast id := ⟨id, [], .refl⟩

theorem ignoresPast_afterInstr (i : Instr) : IgnoresPast (afterInstr i) where
  control := by
    rintro s t ⟨hcursor, hrun, hstream, hfault⟩
    refine ⟨by simp [hcursor], ?_, by simp [hstream], by simp [hfault]⟩
    by_cases hend : i = .endStream
    · subst hend
      rfl
    · rw [afterInstr_run s hend, afterInstr_run t hend, hrun]
  effect := ⟨eventsOf i, busEffect_afterInstr i⟩

theorem DriverLine.ignoresPast {d d' : Driver} {run : RunState} {line : State → State} (h : DriverLine d run line d') :
    IgnoresPast line where
  control := by
    rintro s t ⟨hcursor, hrun, hstream, hfault⟩
    refine ⟨by rw [h.cursor_eq, h.cursor_eq, hcursor], ?_, by rw [h.stream_eq, h.stream_eq, hstream],
      by rw [h.fault_eq, h.fault_eq, hfault]⟩
    rcases h.run_eq with hsame | ⟨-, -, hstart⟩
    · rw [hsame, hsame, hrun]
    · rw [hstart, hstart]
  effect := h.exists_busEffect

theorem fetch_of_sameControl {s t : State} (h : sameControl s t) : fetch t = fetch s := by
  obtain ⟨hcursor, -, hstream, -⟩ := h
  rw [fetch, fetch, hcursor, hstream]

/-- The control registers pick the operation a step performs. -/
theorem step_next_operation {s₁ s₂ t : State} (hsame : sameControl s₁ s₂) (h : step s₁ = .next t) :
    ∃ op, IgnoresPast op ∧ t = op s₁ ∧ step s₂ = .next (op s₂) := by
  have hfetch := fetch_of_sameControl hsame
  obtain ⟨-, hrun, hstream, hfault⟩ := hsame
  obtain ⟨hfits₁, hfault₁, hcase⟩ := step_next_cases h
  have hfits₂ : s₂.stream.fits = true := hstream ▸ hfits₁
  have hfault₂ : s₂.fault = none := hfault ▸ hfault₁
  rcases hcase with ⟨hstopped, rfl⟩ | ⟨hrunning, i, hi, hexec⟩
  · exact ⟨id, ignoresPast_id, rfl, step_of_stopped hfits₂ hfault₂ (hrun ▸ hstopped)⟩
  · exact ⟨afterInstr i, ignoresPast_afterInstr i, exec_next_iff.1 hexec,
      step_of_fetch (interpreting_iff.2 ⟨hrun ▸ hrunning, hfault₂, hfits₂⟩) (hfetch.trans hi)⟩

/-- The same of a session, with the agent's place beside the control registers. -/
theorem sessionStep_next_operation {p₁ p₂ q : Session} (hsame : sameControl p₁.toState p₂.toState)
    (hd : p₁.driver = p₂.driver) (h : sessionStep p₁ = .next q) :
    ∃ op d', IgnoresPast op ∧ q = p₁.move d' op ∧ sessionStep p₂ = .next (p₂.move d' op) := by
  rcases sessionStep_cases p₁ with ⟨line, d', hline, hfits, hfault, hnext⟩ | ⟨hafter, hinside⟩
  · obtain ⟨-, hrun, hstream, hfault'⟩ := hsame
    have hline₂ : DriverLine p₂.driver p₂.run line d' := hd ▸ hrun ▸ hline
    refine ⟨line, d', hline.ignoresPast, Host.Outcome.next.inj (h.symm.trans hnext), ?_⟩
    exact (sessionStep_eq_driverLine (hstream ▸ hfits) (hfault' ▸ hfault)).trans hline₂.driverLine_eq
  · obtain ⟨hstep, hd'⟩ := after_eq_next (hafter.symm.trans h)
    obtain ⟨hpass, hrunning⟩ := hinside _ hstep
    obtain ⟨op, hop, hq, hstep₂⟩ := step_next_operation hsame hstep
    obtain ⟨-, hrun, -, -⟩ := hsame
    have hpass₂ : insidePass p₂ = true := by rwa [insidePass, ← hd]
    exact ⟨op, p₂.driver, hop, Session.ext_iff.2 (by simp [hq, hd', hd]),
      sessionStep_next_of_step hpass₂ (hrun ▸ hrunning) hstep₂⟩

/-- Settles O28: both runs perform the same operation, and it appends the same to both. -/
theorem stepIgnoresThePast : Obligations.StepIgnoresThePast := by
  constructor
  · intro s₁ s₂ t₁ hsame h
    obtain ⟨op, hop, rfl, hstep⟩ := step_next_operation hsame h
    obtain ⟨events, bytes, happended⟩ := hop.appends_same s₁ s₂
    exact ⟨op s₂, events, bytes, hstep, hop.control hsame, happended⟩
  · intro p₁ p₂ q₁ hsame hd h
    obtain ⟨op, d', hop, rfl, hstep⟩ := sessionStep_next_operation hsame hd h
    obtain ⟨events, bytes, happended⟩ := hop.appends_same p₁.toState p₂.toState
    exact ⟨p₂.move d' op, events, bytes, hstep, hop.control hsame, rfl, happended⟩

end Sys2Proof.Machine

/-! SUPPORT. The phases where the stream ends inside an instruction (R35, R141): the read that misses its byte raises the
fault of the atomic step. -/

namespace Sys2Proof.Machine

/-- R141: a phase that reads where the stream has no byte ends the run. -/
theorem phaseRun_of_read_none {p : PhaseState} {addr : Nat} {s : State} {use : Byte → PhaseState}
    (h : phaseStep p = phaseRead addr s use) (hread : s.stream.read addr = none) :
    phaseRun 1 p = .fault (.streamOverrun addr { s with fault := some { addr := addr } }) := by
  simp only [phaseRun, h, phaseRead, hread]

/-- A phase that reads a byte goes on with it. -/
theorem phaseRun_of_read_some {p : PhaseState} {addr : Nat} {s : State} {use : Byte → PhaseState} {b : Byte}
    (h : phaseStep p = phaseRead addr s use) (hread : s.stream.read addr = some b) (n : Nat) :
    phaseRun (n + 1) p = phaseRun n (use b) :=
  phaseRun_next (h.trans (phaseRead_some hread use)) n

theorem phaseStep_fetch {p : PhaseState} (hp : p.phase = .fetch) :
    phaseStep p = phaseRead p.base.cursor p.base fun b => { p with ir := b, phase := .decode } := by
  simp only [phaseStep, hp]

/-- R35: `FETCH` and `DECODE` lead to the phases of the opcode's class. -/
theorem phaseRun_fetch_decode {p : PhaseState} {op : Byte} {ph : Phase} (hp : p.phase = .fetch)
    (hop : p.base.stream.read p.base.cursor = some op) (hph : phaseAfterDecode op = ph) (n : Nat) :
    phaseRun (n + 2) p = phaseRun n { p with ir := op, phase := ph } := by
  subst hph
  exact phaseRun_of_read_some (phaseStep_fetch hp) hop (n + 1)

/-- Whichever read misses its byte, the phases reach it and raise the overrun of the fetch. -/
theorem exists_phaseRun_fetchOverrun {p : PhaseState} {e : DecodeError} (hp : p.phase = .fetch)
    (he : Misses p.base.stream p.base.cursor e) :
    ∃ n f, phaseRun n p = .fault f ∧ fetchOverrun e p.base = .fault f := by
  cases he with
  | noOpcode hop => exact ⟨1, _, phaseRun_of_read_none (phaseStep_fetch hp) hop, rfl⟩
  | noData hop hclass hd =>
    have hoperand := phaseRun_fetch_decode (ph := .operandD) hp hop (by simp only [phaseAfterDecode, hclass]) 1
    exact ⟨3, _, hoperand.trans (phaseRun_of_read_none (s := advanceCursor 1 p.base) rfl hd), rfl⟩
  | noLow hop hclass hlo =>
    have hoperand := phaseRun_fetch_decode (ph := .operandLo) hp hop (by simp only [phaseAfterDecode, hclass]) 1
    exact ⟨3, _, hoperand.trans (phaseRun_of_read_none (s := advanceCursor 1 p.base) rfl hlo), rfl⟩
  | noHigh hop hclass hlo hhi =>
    have hoperand := phaseRun_fetch_decode (ph := .operandLo) hp hop (by simp only [phaseAfterDecode, hclass]) 2
    have hhigh := hoperand.trans (phaseRun_of_read_some (s := advanceCursor 1 p.base) rfl hlo 1)
    exact ⟨4, _, hhigh.trans (phaseRun_of_read_none (s := advanceCursor 1 p.base) rfl hhi), rfl⟩

/-- Settles O52: the fetch misses a byte, and both overrun at that byte's read. -/
theorem phasesOverrunAsTheAtomicStep : Obligations.PhasesOverrunAsTheAtomicStep := by
  intro p hp hs hnone
  cases he : fetch p.base with
  | ok i => exact absurd he (hnone i)
  | error e =>
    obtain ⟨n, f, hrun, hoverrun⟩ := exists_phaseRun_fetchOverrun hp (misses_of_fetch he)
    exact ⟨n, f, hrun, (step_of_fetch_error hs he).trans hoverrun⟩

end Sys2Proof.Machine

/-! SUPPORT. The stream as a space that is only read (R40 to R44): what a read gives, that no step writes, and what a
fetch makes of the bytes it finds. -/

namespace Sys2Proof

/-- R44: the value of the operand of `WAIT16`. -/
theorem toNat_assemble16 (lo hi : Byte) : (assemble16 lo hi).toNat = 256 * hi.toNat + lo.toNat := by
  have hhi : hi.toNat < 2 ^ 8 := hi.isLt
  have hlo : lo.toNat < 2 ^ 8 := lo.isLt
  have hword : hi.toNat <<< 8 < 2 ^ 16 := by rw [Nat.shiftLeft_eq]; omega
  calc (assemble16 lo hi).toNat
      = (hi.toNat % 2 ^ 16) <<< 8 % 2 ^ 16 ||| lo.toNat % 2 ^ 16 := by
        simp only [assemble16, BitVec.toNat_or, BitVec.toNat_shiftLeft, BitVec.toNat_setWidth]
    _ = hi.toNat <<< 8 ||| lo.toNat := by
        rw [Nat.mod_eq_of_lt (a := hi.toNat) (by omega), Nat.mod_eq_of_lt (a := lo.toNat) (by omega),
          Nat.mod_eq_of_lt hword]
    _ = hi.toNat <<< 8 + lo.toNat := (Nat.shiftLeft_add_eq_or_of_lt hlo _).symm
    _ = 256 * hi.toNat + lo.toNat := by rw [Nat.shiftLeft_eq, Nat.mul_comm]

/-- R44: the two digits of a count to the base 256, low one first, are the count. -/
theorem assemble16_digits {n : Nat} (hn : n ≤ 65535) :
    assemble16 (BitVec.ofNat 8 (n % 256)) (BitVec.ofNat 8 (n / 256)) = BitVec.ofNat 16 n := by
  apply BitVec.eq_of_toNat_eq
  rw [toNat_assemble16]
  simp only [BitVec.toNat_ofNat]
  omega

theorem decode_wait16_bytes (lo hi : Byte) (rest : List Byte) :
    decode (0x61 :: lo :: hi :: rest) = .ok (.wait16 (assemble16 lo hi), rest) := rfl

/-- Settles O6: the operand is assembled to the number its two bytes spell. -/
theorem wait16OperandIsLittleEndian : Obligations.Wait16OperandIsLittleEndian := by
  refine ⟨fun lo hi rest => ⟨_, decode_wait16_bytes lo hi rest, toNat_assemble16 lo hi⟩, fun n rest hn => ?_⟩
  rw [decode_wait16_bytes, assemble16_digits hn]

end Sys2Proof

namespace Sys2Proof.Machine

/-- Settles O7: a read of the cells laid out from offset 0. -/
theorem streamReadGivesTheByteAtItsOffset : Obligations.StreamReadGivesTheByteAtItsOffset := Memory.read_ofBytes

/-! ### No step writes the stream -/

theorem step_next_stream {s t : State} (h : step s = .next t) : t.stream = s.stream := by
  obtain ⟨-, -, ⟨-, rfl⟩ | ⟨-, i, -, hexec⟩⟩ := step_next_cases h
  · rfl
  · rw [exec_next_iff.1 hexec, afterInstr_stream]

theorem OneStep.stream_eq {s t : State} (h : OneStep s t) : t.stream = s.stream := by
  rcases h with h | ⟨p, q, rfl, rfl, h⟩
  · exact step_next_stream h
  · rcases sessionStep_next h with ⟨line, d', hline, rfl⟩ | ⟨-, -, hstep, -⟩
    · exact hline.stream_eq p.toState
    · exact step_next_stream hstep

theorem step_overrun_stream {s t : State} {a : Nat} (ht : step s = .fault (.streamOverrun a t)) :
    t.stream = s.stream := by
  cases stepCase s with
  | unaddressable _ h => cases ht.symm.trans h
  | faulted _ _ h =>
    cases ht.symm.trans h
    rfl
  | stopped _ _ h => cases ht.symm.trans h
  | runs _ _ h => cases ht.symm.trans h
  | overruns _ _ h =>
    cases ht.symm.trans h
    rfl

/-- Settles O8: an instruction, a line of the session and an overrun each leave the stream. -/
theorem noStepWritesTheStream : Obligations.NoStepWritesTheStream := by
  refine ⟨fun s t h => ?_, fun s t a => step_overrun_stream, fun p t a h => ?_⟩
  · have hstream : t.stream = s.stream := h.stream_eq
    exact ⟨hstream, fun a => by rw [hstream]⟩
  · exact step_overrun_stream (step_fault_of_sessionStep h)

/-! ### What a fetch makes of the bytes at the Cursor -/

/-- Settles O14: the bytes read are the encoding, and decode to the instruction. -/
theorem encodedBytesAtTheCursorRun : Obligations.EncodedBytesAtTheCursorRun := by
  intro s i hs hi hbytes
  rw [step_of_interpreting hs, interpretStep_of_fetch (fetch_of_bytesAt hi hbytes)]

theorem fetch_of_read_none {s : State} (h : s.stream.read s.cursor = none) : fetch s = .error .noOpcode := by
  simp [fetch, fetchBytes_of_read_none h, decode]

/-- Settles O36: the opcode is the byte that is missing, and there the Cursor has not moved. -/
theorem fetchPastTheEndOverruns : Obligations.FetchPastTheEndOverruns := by
  intro s hs hread
  rw [step_of_fetch_error hs (fetch_of_read_none hread)]
  rfl

end Sys2Proof.Machine

/-! SUPPORT. A whole pass, of the machine and of a session, and the pass after it over the same stream (R51, R122,
R123). -/

namespace Sys2Proof.Machine

/-! ### One pass -/

/-- The state that a pass over these instructions and the `END` after them leaves. -/
def passEnd (is : List Instr) (s : State) : State := afterInstr .endStream (afterAll is s)

/-- The events of that pass. -/
def passEvents (is : List Instr) : List Event := eventsOfAll is ++ eventsOf .endStream

theorem busEffect_passEnd (is : List Instr) (s : State) : BusEffect (passEvents is) s (passEnd is s) :=
  (busEffect_afterAll is s).trans (busEffect_afterInstr .endStream _)

theorem BusEffect.busTrace {ev : List Event} {s t : State} (h : BusEffect ev s t) (hs : BusTrace s.trace) :
    BusTrace t.trace := h.trace ▸ hs.append h.disciplined

@[simp] theorem passEnd_stream (is : List Instr) (s : State) : (passEnd is s).stream = s.stream := by simp [passEnd]
@[simp] theorem passEnd_fault (is : List Instr) (s : State) : (passEnd is s).fault = s.fault := by simp [passEnd]

section Pass

variable {is : List Instr} (h : ∀ i ∈ is, goesOn i = true)
include h

/-- R123: what the PSG accepts over a pass: the data, then the mute. -/
theorem writes_passEvents : writes (passEvents is) = dataBytes is ++ muteBytes := by
  rw [passEvents, (busTrace_eventsOfAll is).writes_append (busTrace_eventsOf .endStream), writes_eventsOfAll h]
  rfl

/-- R120, R123: the whole state after a pass. -/
theorem passEnd_eq (s : State) : passEnd is s = { s with
    cursor := 0, run := .stopped, we := 1, cs := .idle, dly := 0, srOut := 0xFF
    psgLog := s.psgLog ++ dataBytes is ++ muteBytes
    trace := s.trace ++ eventsOfAll is ++ muteEvents ++ [.delay 2000000] } := by
  have heffect := busEffect_passEnd is s
  apply State.ext
  case psgLog => rw [heffect.psgLog, writes_passEvents h, ← List.append_assoc]
  case trace => rw [heffect.trace]; simp [passEvents, eventsOf]
  all_goals simp [passEnd, afterInstr]

theorem writes_passEnd {s : State} (hs : BusTrace s.trace) :
    writes (passEnd is s).trace = writes s.trace ++ dataBytes is ++ muteBytes := by
  rw [(busEffect_passEnd is s).writes_trace hs, writes_passEvents h, List.append_assoc]

/-- R123: the machine makes the pass in one step an instruction. -/
theorem runFor_passEnd {s : State} {beyond : List Byte} (hs : Interpreting s)
    (hbytes : BytesAt s.stream s.cursor (encodeAll is ++ 0x66 :: beyond)) :
    runFor (is.length + 1) s = .next (passEnd is s) := by
  obtain ⟨hbody, -, -⟩ := runFor_encoded h hs (bytesAt_append_iff.1 hbytes).1
  rw [runFor_add _ _ hbody]
  exact runFor_next (step_afterAll_endStream h hs hbytes) 0

/-- R15: and so does a session, wherever its pass began. -/
theorem sessionFor_passEnd {p : Session} {beyond : List Byte} (hd : insidePass p = true) (hp : Interpreting p.toState)
    (hbytes : BytesAt p.stream p.cursor (encodeAll is ++ 0x66 :: beyond)) :
    sessionFor (is.length + 1) p = .next { toState := passEnd is p.toState, driver := p.driver } := by
  obtain ⟨hbody, hinterpreting, -⟩ := runFor_encoded h hp (bytesAt_append_iff.1 hbytes).1
  obtain ⟨j, -, hj, hfor⟩ := sessionFor_of_runFor is.length hd (interpreting_iff.1 hp).1 hbody
  have hrunning := (interpreting_iff.1 hinterpreting).1
  obtain rfl := hj hrunning
  rw [sessionFor_add _ _ hfor]
  have hend := step_afterAll_endStream h hp hbytes
  exact sessionFor_next (sessionStep_next_of_step (p := { toState := afterAll is p.toState, driver := p.driver }) hd
    hrunning hend) 0

end Pass

/-! ### The pass after it -/

/-- Between two passes over the bytes `bs`: what a pass leaves, and the last lines of `Playback()` keep. -/
structure BetweenPasses (bs : List Byte) (s : State) : Prop where
  cursor : s.cursor = 0
  run    : s.run = .stopped
  we     : s.we = 1
  cs     : s.cs = .idle
  dly    : s.dly = 0
  srOut  : s.srOut = 0xFF
  fault  : s.fault = none
  fits   : s.stream.fits = true
  bytes  : BytesAt s.stream 0 bs

theorem betweenPasses_passEnd {is : List Instr} {bs : List Byte} {s : State} (hs : Interpreting s)
    (hbytes : BytesAt s.stream 0 bs) : BetweenPasses bs (passEnd is s) := by
  obtain ⟨-, hfault, hfits⟩ := interpreting_iff.1 hs
  constructor
  case fault => rw [passEnd_fault, hfault]
  case fits => rw [passEnd_stream, hfits]
  case bytes => rwa [passEnd_stream]
  all_goals simp [passEnd, afterInstr]

section Again

variable {is : List Instr} {bs beyond : List Byte} {s : State}

theorem BetweenPasses.interpreting (hs : BetweenPasses bs s) : Interpreting (beginPass s) :=
  interpreting_iff.2 ⟨rfl, hs.fault, hs.fits⟩

theorem BetweenPasses.bytesAt (hs : BetweenPasses bs s) : BytesAt (beginPass s).stream (beginPass s).cursor bs := by
  rw [beginPass_stream, beginPass_cursor, hs.cursor]
  exact hs.bytes

/-- The mute and the signal after a pass leave all this as it is. -/
theorem BetweenPasses.closeSession {p : Session} (hp : BetweenPasses bs p.toState) :
    BetweenPasses bs (closeSession p).toState := by
  obtain ⟨hcursor, hrun, -, -, -, -, hfault, hfits, hbytes⟩ := hp
  constructor <;> simp [Machine.closeSession, *]

/-- R51: the next pass gives the registers the values they have, and appends to the log and the trace. -/
theorem BetweenPasses.passEnd_beginPass (hs : BetweenPasses bs s) (h : ∀ i ∈ is, goesOn i = true) :
    passEnd is (beginPass s) = { s with
      psgLog := s.psgLog ++ dataBytes is ++ muteBytes
      trace := s.trace ++ eventsOfAll is ++ muteEvents ++ [.delay 2000000] } := by
  rw [passEnd_eq h]
  apply State.ext <;> simp [hs.cursor, hs.run, hs.we, hs.cs, hs.dly, hs.srOut]

/-- R122: where the host is waited for, it starts the next pass, which ends as the one before. -/
theorem BetweenPasses.exists_startPass {w : Session} (hw : BetweenPasses (encodeAll is ++ 0x66 :: beyond) w.toState)
    (hhost : awaitsHost w = true) (h : ∀ i ∈ is, goesOn i = true) :
    ∃ u v, startPass w = .next u ∧ sessionFor (is.length + 1) u = .next v ∧
      v = { w with
        driver := .barePass
        psgLog := w.psgLog ++ dataBytes is ++ muteBytes
        trace := w.trace ++ eventsOfAll is ++ muteEvents ++ [.delay 2000000] } ∧
      (BusTrace w.trace → writes v.trace = writes w.trace ++ dataBytes is ++ muteBytes) := by
  refine ⟨_, _, hostMove_of_awaitsHost hhost,
    sessionFor_passEnd (p := w.move .barePass beginPass) h rfl hw.interpreting hw.bytesAt, ?_,
    writes_passEnd (s := beginPass w.toState) h⟩
  rw [move_toState, hw.passEnd_beginPass h]
  rfl

end Again

/-- Settles O48: a pass, and from the state it leaves the pass again, of the machine, in a bare pass, and after the last
lines of `Playback()`. -/
theorem wellFormedPassEndsInStopped : Obligations.WellFormedPassEndsInStopped := by
  intro s is beyond hs hcursor h hstream
  have hbytes : BytesAt s.stream 0 (encodeAll is ++ 0x66 :: beyond) := hstream ▸ bytesAt_ofBytes _
  have hbetween : BetweenPasses _ (passEnd is s) := betweenPasses_passEnd hs hbytes
  have htrace : BusTrace s.trace → BusTrace (passEnd is s).trace := (busEffect_passEnd is s).busTrace
  refine ⟨passEnd is s, runFor_passEnd h hs (hcursor.symm ▸ hbytes), passEnd_eq h s, writes_passEnd h,
    ⟨_, runFor_passEnd h hbetween.interpreting hbetween.bytesAt, hbetween.passEnd_beginPass h,
      fun hbus => writes_passEnd (s := beginPass (passEnd is s)) h (htrace hbus)⟩, ?_⟩
  rintro d (rfl | rfl)
  · have hhost : awaitsHost { toState := passEnd is s, driver := .barePass } = true := by
      simp [awaitsHost, hbetween.run]
    obtain ⟨u, v, hstart, hpass, hv, hwrites⟩ := hbetween.exists_startPass hhost h
    exact ⟨_, fun _ => rfl, nofun, u, v, hstart, hpass, hv, fun hbus => hwrites (htrace hbus)⟩
  · have hclose : sessionFor 2 { toState := passEnd is s, driver := .sessionPass } = .next (closeSession _) :=
      sessionFor_closeSession rfl hbetween.run hbetween.fits hbetween.fault
    obtain ⟨u, v, hstart, hpass, hv, hwrites⟩ :=
      (hbetween.closeSession (p := { toState := passEnd is s, driver := .sessionPass })).exists_startPass rfl h
    exact ⟨_, nofun, fun _ => hclose, u, v, hstart, hpass, hv,
      fun hbus => hwrites ((busEffect_closeSession _).busTrace (htrace hbus))⟩

end Sys2Proof.Machine

/-! SUPPORT. The encoding as a table of opcode bytes (R61 to R66): which byte stands for which class, that `classify` reads
the table, and what follows for whole instructions. -/

namespace Sys2Proof

/-! ### The opcode byte of a class -/

/-- R63: the byte is the opcode of the class. -/
inductive OpcodeFor : Byte → OpClass → Prop where
  | waitn (k : BitVec 4) : OpcodeFor (0x70 + k.setWidth 8) (.waitn k)
  | psgw : OpcodeFor 0x50 .psgw
  | wait16 : OpcodeFor 0x61 .wait16
  | wait735 : OpcodeFor 0x62 .wait735
  | wait882 : OpcodeFor 0x63 .wait882
  | endStream : OpcodeFor 0x66 .endStream
  | unhandled {op : Byte} (hop : handledOpcode op = false) : OpcodeFor op (.unhandled op)

/-- R61: an opcode with top nibble 7 is put together again from its low nibble. -/
theorem waitn_opcode_of_top_nibble : ∀ op : Byte, op &&& 0xF0 = 0x70 → 0x70 + (op.setWidth 4).setWidth 8 = op := by
  decide

theorem classify_of_top_nibble {op : Byte} (h : op &&& 0xF0 = 0x70) : classify op = .waitn (op.setWidth 4) := if_pos h

/-- R65: every byte is the opcode of the class it is decoded to. -/
theorem opcodeFor_classify (op : Byte) : OpcodeFor op (classify op) := by
  by_cases hop : handledOpcode op
  · simp only [handledOpcode, Bool.or_eq_true, beq_iff_eq] at hop
    obtain ((((htop | rfl) | rfl) | rfl) | rfl) | rfl := hop
    · have hwaitn : OpcodeFor _ (.waitn (op.setWidth 4)) := .waitn _
      rwa [waitn_opcode_of_top_nibble op htop, ← classify_of_top_nibble htop] at hwaitn
    · exact .psgw
    · exact .wait16
    · exact .wait735
    · exact .wait882
    · exact .endStream
  · rw [Bool.not_eq_true] at hop
    exact classify_of_not_handled hop ▸ .unhandled hop

theorem classify_eq_unhandled_iff {op : Byte} : classify op = .unhandled op ↔ handledOpcode op = false := by
  refine ⟨fun h => ?_, classify_of_not_handled⟩
  have hop : OpcodeFor op (.unhandled op) := h ▸ opcodeFor_classify op
  cases hop with
  | unhandled hop => exact hop

/-- R66: the opcodes of two- and three-byte instructions are one byte each. -/
theorem OpcodeFor.length_eq {op : Byte} {c : OpClass} (h : OpcodeFor op c) :
    c.length = if op = 0x50 then 2 else if op = 0x61 then 3 else 1 := by
  cases h with
  | waitn k =>
    revert k
    decide
  | unhandled hop =>
    simp only [handledOpcode, Bool.or_eq_false_iff, beq_eq_false_iff_ne] at hop
    simp only [OpClass.length, hop, if_false]
  | _ => rfl

/-! ### Whole instructions -/

/-- Settles O1: the opcode is classified to its class, and the operand bytes are put together to the operand. -/
theorem decodeRecoversEveryEncodedInstruction : Obligations.DecodeRecoversEveryEncodedInstruction :=
  fun _ rest hi => decode_encode_append hi rest

/-- R44: the two bytes of an assembled count are those it was assembled from. -/
theorem bytes_assemble16 (lo hi : Byte) :
    (assemble16 lo hi).setWidth 8 = lo ∧ (assemble16 lo hi >>> 8).setWidth 8 = hi := by
  have hhi : hi.toNat < 256 := hi.isLt
  have hlo : lo.toNat < 256 := lo.isLt
  constructor <;> apply BitVec.eq_of_toNat_eq
  · rw [BitVec.toNat_setWidth, toNat_assemble16]
    omega
  · rw [BitVec.toNat_setWidth, BitVec.toNat_ushiftRight, toNat_assemble16, Nat.shiftRight_eq_div_pow]
    omega

theorem wf_and_encode_of_decode {bs : List Byte} {i : Instr} {rest : List Byte} (h : decode bs = .ok (i, rest)) :
    i.wf = true ∧ encode i ++ rest = bs := by
  cases bs with
  | nil => cases h
  | cons op operands =>
    have hop : OpcodeFor op (classify op) := opcodeFor_classify op
    simp only [decode] at h
    generalize classify op = c at h hop
    cases hop with
    | psgw =>
      cases operands with
      | nil => cases h
      | cons d tail =>
        cases h
        exact ⟨rfl, rfl⟩
    | wait16 =>
      match operands, h with
      | lo :: hi :: tail, rfl =>
        obtain ⟨hlo, hhi⟩ := bytes_assemble16 lo hi
        exact ⟨rfl, by rw [encode, hlo, hhi]; rfl⟩
    | unhandled hop =>
      cases h
      exact ⟨by rw [Instr.wf, hop]; rfl, rfl⟩
    | _ =>
      cases h
      exact ⟨rfl, rfl⟩

/-- Settles O2: the class has the opcode that was read, and its operand has the bytes it was assembled from. -/
theorem encodeReproducesEveryDecodedStream : Obligations.EncodeReproducesEveryDecodedStream :=
  fun _ _ _ => wf_and_encode_of_decode

theorem length_encode (i : Instr) : (encode i).length = i.length := by
  cases i with
  | waitn k => exact Laws.EncodeLength.waitn k
  | psgw d => exact Laws.EncodeLength.psgw d
  | wait16 n => exact Laws.EncodeLength.wait16 n
  | wait735 => exact Laws.EncodeLength.wait735
  | wait882 => exact Laws.EncodeLength.wait882
  | endStream => exact Laws.EncodeLength.endStream
  | unhandled op => exact Laws.EncodeLength.unhandled op

/-- R66: what was decoded has the length its opcode byte tells, and so many bytes were taken. -/
theorem length_of_decode {op : Byte} {operands rest : List Byte} {i : Instr}
    (h : decode (op :: operands) = .ok (i, rest)) :
    i.length = instrLength op ∧ operands.length + 1 = instrLength op + rest.length := by
  obtain ⟨hi, hbytes⟩ := wf_and_encode_of_decode h
  obtain ⟨op', taken, hencode, hlength⟩ := exists_encode_eq_cons hi
  rw [hencode, List.cons_append] at hbytes
  obtain ⟨rfl, rfl⟩ := List.cons.inj hbytes
  rw [← length_encode, hencode, hlength, List.length_append, List.length_cons]
  exact ⟨rfl, Nat.add_right_comm ..⟩

/-- Settles O5: the length of a class by its opcode, and what is decoded is as long as its encoding. -/
theorem opcodeByteAloneDecidesTheLength : Obligations.OpcodeByteAloneDecidesTheLength :=
  ⟨fun op => (opcodeFor_classify op).length_eq, fun _ _ _ _ => length_of_decode, fun _ _ => rfl,
    fun lo hi rest => ⟨_, decode_wait16_bytes lo hi rest⟩⟩

/-! ### The tables value by value -/

/-- Settles O3: each word is evaluated. -/
theorem wordsOfTheEncodingTablesDecode : Obligations.WordsOfTheEncodingTablesDecode :=
  ⟨rfl, rfl, rfl, rfl, rfl, rfl, rfl⟩

theorem toNat_low_nibble (op : Byte) : (op.setWidth 4).toNat = (op &&& 0x0F).toNat := by
  rw [BitVec.toNat_setWidth, BitVec.toNat_and]
  exact (Nat.and_two_pow_sub_one_eq_mod op.toNat 4).symm

/-- R65: the opcodes with top nibble 7 are the values `0x70` to `0x7F`. -/
theorem top_nibble_eq_seven_iff : ∀ op : Byte, op &&& 0xF0 = 0x70 ↔ 0x70 ≤ op.toNat ∧ op.toNat ≤ 0x7F := by
  decide

/-- R65: the values no handled class claims, as the rule lists them. -/
theorem handledOpcode_eq_false_iff (op : Byte) :
    handledOpcode op = false ↔
      op.toNat ≤ 0x4F ∨ (0x51 ≤ op.toNat ∧ op.toNat ≤ 0x60) ∨ op = 0x64 ∨ op = 0x65 ∨
      (0x67 ≤ op.toNat ∧ op.toNat ≤ 0x6F) ∨ 0x80 ≤ op.toNat := by
  simp only [handledOpcode, Bool.or_eq_false_iff, beq_eq_false_iff_ne, ne_eq, top_nibble_eq_seven_iff]
  bv_omega

/-- Settles O4: a handled opcode is classified to its class, and the others are counted out. -/
theorem everyOpcodeByteHasItsClass : Obligations.EveryOpcodeByteHasItsClass := by
  intro op
  refine ⟨fun htop => ⟨_, classify_of_top_nibble htop, toNat_low_nibble op⟩, ?_, ?_, ?_, ?_, ?_,
    classify_eq_unhandled_iff.trans (handledOpcode_eq_false_iff op)⟩ <;>
  · rintro rfl
    rfl

end Sys2Proof

/-! SUPPORT. The Hardware Writer (R80 to R85): its three operations, the step of `PSGW`, and the lines of `Playback()` around
the pass, a mute on either side of it (R84, R161). -/

namespace Sys2Proof.Machine

/-! ### The operations -/

/-- Settles O30: field by field, through the laws of `latchByte`. -/
theorem latchByteFramesOneTransfer : Obligations.LatchByteFramesOneTransfer := by
  intro b s
  ext1 <;> simp

/-- Settles O31: field by field, through the laws of `sendByte`. -/
theorem sendByteIsOneWriteTransaction : Obligations.SendByteIsOneWriteTransaction := by
  intro b s
  apply State.ext
  case trace => exact sendByte_trace b s
  all_goals simp

/-- Settles O32: field by field; the events are those of the four writes, one after the other. -/
theorem silenceIsFourWritesInOrder : Obligations.SilenceIsFourWritesInOrder := by
  intro s
  apply State.ext
  case psgLog => exact silenceAllChannels_psgLog s
  case trace => simp [Config.muteSeq, writeEvents_eq_transaction]
  all_goals simp

/-! ### The step of `PSGW` -/

theorem fetch_psgw {s : State} {d : Byte} (hop : s.stream.read s.cursor = some 0x50)
    (hd : s.stream.read (s.cursor + 1) = some d) : fetch s = .ok (.psgw d) :=
  fetch_of_bytesAt rfl (bytesAt_cons_iff.2 ⟨hop, bytesAt_cons_iff.2 ⟨hd, nofun⟩⟩)

theorem fetch_psgw_noData {s : State} (hop : s.stream.read s.cursor = some 0x50)
    (hd : s.stream.read (s.cursor + 1) = none) : fetch s = .error .noData := by
  have hclass : classify 0x50 = .psgw := rfl
  simp only [fetch, fetchBytes_of_read hop, hclass, OpClass.length, Memory.readRun, hd, decode]

/-- Settles O16: with its data byte the instruction is fetched and run, without it the fetch misses the byte before anything
is emitted. -/
theorem registerWriteStep : Obligations.RegisterWriteStep := by
  intro s hs hop
  constructor
  · intro d hd
    rw [step_of_interpreting hs, interpretStep_of_fetch (fetch_psgw hop hd), psgwIssuesOneWriteTransaction d s]
  · intro hd
    rw [step_of_fetch_error hs (fetch_psgw_noData hop hd)]
    rfl

/-! ### The lines around the pass -/

/-- R161: the whole session on entering the pass. -/
theorem openSession_eq (p : Session) : openSession p = { p with
    driver := .sessionPass, run := .running, we := 1, cs := .idle, dly := 0, srOut := 0xFF
    psgLog := p.psgLog ++ muteBytes
    trace := p.trace ++ [.busConfig, .cs .idle] ++ muteEvents ++ [.delay 500000] } := by
  have heffect := busEffect_openSession p
  apply Session.ext
  case psgLog => exact heffect.psgLog
  case trace => rw [heffect.trace]; simp [openingEvents]
  all_goals simp [openSession]

/-- R161: the whole session once completion has been signalled. -/
theorem closeSession_eq (p : Session) : closeSession p = { p with
    driver := .idle, we := 1, cs := .idle, dly := 0, srOut := 0xFF
    psgLog := p.psgLog ++ muteBytes
    trace := p.trace ++ muteEvents ++ [.done] } := by
  have heffect := busEffect_closeSession p
  apply Session.ext
  case psgLog => exact heffect.psgLog
  case trace => rw [heffect.trace]; simp [closingEvents]
  all_goals simp [closeSession]

@[simp] theorem closeSession_stream (p : Session) : (closeSession p).stream = p.stream := by simp [closeSession]

/-- With nothing left to do, the agent does nothing. -/
theorem sessionStep_of_idle {p : Session} (hd : p.driver = .idle) (hfits : p.stream.fits = true) (hfault : p.fault = none) :
    sessionStep p = .next p := by
  simp [sessionStep_eq_driverLine hfits hfault, driverLine, hd]

/-- R161: the two lines after the pass, and nothing after them. -/
theorem sessionFor_closeSession_add {p : Session} (hd : p.driver = .sessionPass) (hrun : p.run = .stopped)
    (hfits : p.stream.fits = true) (hfault : p.fault = none) (k : Nat) :
    sessionFor (k + 2) p = .next (closeSession p) := by
  rw [Nat.add_comm, sessionFor_add 2 k (sessionFor_closeSession hd hrun hfits hfault)]
  exact sessionFor_fixed (sessionStep_of_idle rfl (by simp [hfits]) (by simp [hfault])) k

/-- Inside a running pass a step leaves the agent where it stands. -/
theorem sessionStep_driver {p q : Session} (hd : insidePass p = true) (hrun : p.run = .running)
    (h : sessionStep p = .next q) : q.driver = p.driver :=
  (after_eq_next ((sessionStep_of_insidePass hd hrun).symm.trans h)).2

/-- Settles O47: the lines before the pass and after it are run one after the other, and inside it the agent stays. -/
theorem sessionSurroundsThePass : Obligations.SessionSurroundsThePass := by
  refine ⟨rfl, rfl, fun p hfits hfault => ⟨fun hd => ?_, fun hd hrun k => ?_, fun hd hrun q h => ?_⟩⟩
  · rw [sessionFor_openSession hd hfits hfault, openSession_eq]
  · rw [sessionFor_closeSession_add hd hrun hfits hfault, closeSession_eq]
  · have hinside : insidePass p = true := by simp [insidePass, hd]
    rw [sessionStep_driver hinside hrun h, hd]

end Sys2Proof.Machine

/-! SUPPORT. The sample timer and the waits (R100 to R106): one delay, the steps of the four wait instructions, and the
longest delay any step requests. -/

namespace Sys2Proof.Machine

/-! ### The delay -/

/-- Settles O33: the timer is loaded and drained again, so that of it only the event remains. -/
theorem delayIsOneEvent : Obligations.DelayIsOneEvent := ⟨fun _ _ => rfl, fun _ _ => rfl⟩

/-! ### The waits of one byte -/

/-- An instruction of one byte is run when that byte is at the Cursor. -/
theorem step_of_encode_eq_singleton {s : State} {i : Instr} {op : Byte} (hs : Interpreting s) (hi : i.wf = true)
    (hencode : encode i = [op]) (hop : s.stream.read s.cursor = some op) : step s = exec i s :=
  encodedBytesAtTheCursorRun s i hs hi (hencode ▸ bytesAt_cons_iff.2 ⟨hop, nofun⟩)

/-- Settles O15: the byte is the whole encoding of the wait. -/
theorem shortWaitStep : Obligations.ShortWaitStep := by
  intro s k hs hop
  obtain ⟨hwaitn, -⟩ := waitsAdvanceTheCursorAndRequestOneDelay s
  exact (step_of_encode_eq_singleton hs rfl rfl hop).trans (hwaitn k)

/-- Settles O18: the opcode is the whole encoding of either wait. -/
theorem fixedWaitStep : Obligations.FixedWaitStep := by
  intro s hs
  obtain ⟨-, -, hwait735, hwait882⟩ := waitsAdvanceTheCursorAndRequestOneDelay s
  exact ⟨fun hop => (step_of_encode_eq_singleton hs rfl rfl hop).trans hwait735,
    fun hop => (step_of_encode_eq_singleton hs rfl rfl hop).trans hwait882⟩

/-! ### `WAIT16` -/

section CountedWait

variable {s : State} {lo hi : Byte}

theorem fetch_wait16 (hop : s.stream.read s.cursor = some 0x61) (hlo : s.stream.read (s.cursor + 1) = some lo)
    (hhi : s.stream.read (s.cursor + 2) = some hi) : fetch s = .ok (.wait16 (assemble16 lo hi)) := by
  have hencode : encode (.wait16 (assemble16 lo hi)) = [0x61, lo, hi] := by simp [encode, bytes_assemble16]
  refine fetch_of_bytesAt rfl (hencode ▸ ?_)
  exact bytesAt_cons_iff.2 ⟨hop, bytesAt_cons_iff.2 ⟨hlo, bytesAt_cons_iff.2 ⟨hhi, nofun⟩⟩⟩

theorem fetch_wait16_noLow (hop : s.stream.read s.cursor = some 0x61) (hlo : s.stream.read (s.cursor + 1) = none) :
    fetch s = .error .noLow := by
  have hclass : classify 0x61 = .wait16 := rfl
  simp only [fetch, fetchBytes_of_read hop, hclass, OpClass.length, Memory.readRun, hlo, decode]

theorem fetch_wait16_noHigh (hop : s.stream.read s.cursor = some 0x61) (hlo : s.stream.read (s.cursor + 1) = some lo)
    (hhi : s.stream.read (s.cursor + 2) = none) : fetch s = .error .noHigh := by
  have hclass : classify 0x61 = .wait16 := rfl
  simp only [fetch, fetchBytes_of_read hop, hclass, OpClass.length, Memory.readRun, hlo, hhi, decode]

end CountedWait

/-- Settles O17: with both operand bytes the count they spell is waited for; without one of them the fetch misses it, the
Cursor by then on the operand. -/
theorem countedWaitStep : Obligations.CountedWaitStep := by
  intro s hs hop
  obtain ⟨-, hwait16, -⟩ := waitsAdvanceTheCursorAndRequestOneDelay s
  refine ⟨fun lo hi hlo hhi => ?_, fun hlo => ?_, fun lo hlo hhi => ?_⟩
  · rw [step_of_interpreting hs, interpretStep_of_fetch (fetch_wait16 hop hlo hhi), hwait16, toNat_assemble16]
  · rw [step_of_fetch_error hs (fetch_wait16_noLow hop hlo)]
    rfl
  · rw [step_of_fetch_error hs (fetch_wait16_noHigh hop hlo hhi)]
    rfl

/-! ### The longest delay

A single delay is no longer than all events around it together, which is enough but for `END`: its pause alone is at the
bound, and the mute before it comes on top. -/

/-- No event of the list is a delay longer than `bound`. -/
def DelaysWithin (bound : Nat) (ev : List Event) : Prop := ∀ us, Event.delay us ∈ ev → us ≤ bound

theorem delaysWithin_elapsed (ev : List Event) : DelaysWithin (elapsed ev) ev := by
  intro us h
  induction ev with
  | nil => cases h
  | cons e rest ih =>
    rw [elapsed]
    rcases List.mem_cons.1 h with rfl | hrest
    · exact Nat.le_add_right us _
    · exact (ih hrest).trans (Nat.le_add_left _ _)

theorem DelaysWithin.mono {m n : Nat} {ev : List Event} (h : DelaysWithin m ev) (hmn : m ≤ n) : DelaysWithin n ev :=
  fun us hus => (h us hus).trans hmn

theorem DelaysWithin.append {n : Nat} {ev ev' : List Event} (h : DelaysWithin n ev) (h' : DelaysWithin n ev') :
    DelaysWithin n (ev ++ ev') :=
  fun us hus => (List.mem_append.1 hus).elim (h us) (h' us)

/-- R162: any instruction but `END` requests at most what a `WAIT16` of 65535 units does. -/
theorem requestedUs_le {i : Instr} (hi : i ≠ .endStream) : requestedUs i ≤ 23 * 65535 := by
  cases i with
  | waitn k =>
    have hk : k.toNat < 16 := k.isLt
    simp only [requestedUs]
    omega
  | wait16 n =>
    have hn : n.toNat < 65536 := n.isLt
    simp only [requestedUs]
    omega
  | endStream => exact absurd rfl hi
  | _ => simp [requestedUs]

/-- R106: the longest delay of all instructions is the pause of `END`. -/
theorem delaysWithin_eventsOf (i : Instr) : DelaysWithin 2000000 (eventsOf i) := by
  by_cases hi : i = .endStream
  · subst hi
    have hmute : DelaysWithin 2000000 muteEvents := (delaysWithin_elapsed _).mono (by simp)
    exact hmute.append (delaysWithin_elapsed [.delay 2000000])
  · have htotal : elapsed (eventsOf i) ≤ 23 * 65535 := (elapsed_eventsOf i).trans_le (requestedUs_le hi)
    exact (delaysWithin_elapsed _).mono (htotal.trans (by decide))

/-- R161: of the lines around the pass the one that requests most is the settling delay. -/
theorem DriverLine.elapsed_le {d d' : Driver} {run : RunState} {line : State → State} (h : DriverLine d run line d')
    (s : State) : elapsed (line s).trace ≤ elapsed s.trace + 500000 := by
  have hmute : elapsed (silenceAllChannels s).trace = elapsed s.trace + 92 :=
    (busEffect_silenceAllChannels s).elapsed_trace
  cases h with
  | initialMute => omega
  | finalMute => omega
  | settle => exact (busEffect_delay _ s).elapsed_trace.le
  | _ => simp [elapsed, Event.requested]

/-! ### The statement about every step -/

theorem step_exists_delaysWithin {s t : State} (h : step s = .next t) :
    ∃ ev, t.trace = s.trace ++ ev ∧ DelaysWithin 2000000 ev := by
  obtain ⟨-, -, ⟨-, rfl⟩ | ⟨-, i, -, hexec⟩⟩ := step_next_cases h
  · exact ⟨[], by simp, nofun⟩
  · exact ⟨eventsOf i, exec_next_iff.1 hexec ▸ (busEffect_afterInstr i s).trace, delaysWithin_eventsOf i⟩

theorem OneStep.exists_delaysWithin {s t : State} (h : OneStep s t) :
    ∃ ev, t.trace = s.trace ++ ev ∧ DelaysWithin 2000000 ev := by
  rcases h with h | ⟨p, q, rfl, rfl, h⟩
  · exact step_exists_delaysWithin h
  · rcases sessionStep_next h with ⟨line, d', hline, rfl⟩ | ⟨-, -, hstep, -⟩
    · obtain ⟨ev, heffect⟩ := hline.exists_busEffect
      have htotal : elapsed ev ≤ 2000000 := by
        have hsum := (heffect p.toState).elapsed_trace
        have hle := hline.elapsed_le p.toState
        omega
      exact ⟨ev, (heffect p.toState).trace, (delaysWithin_elapsed ev).mono htotal⟩
    · exact step_exists_delaysWithin hstep

/-- Settles O26: the events a step adds are within the bound, and the timer holds more than the bound. -/
theorem everyRequestedDelayFitsTheTimer : Obligations.EveryRequestedDelayFitsTheTimer := by
  intro s t h
  obtain ⟨ev, htrace, hwithin⟩ := h.exists_delaysWithin
  refine ⟨ev, htrace, fun us hus => ?_⟩
  have hle : us ≤ 2000000 := hwithin us hus
  have hwidth : us < 2 ^ Config.timerWidth := hle.trans_lt (by decide)
  exact ⟨hle, by omega, by rw [BitVec.toNat_ofNat, Nat.mod_eq_of_lt hwidth]⟩

end Sys2Proof.Machine

/-! SUPPORT. How a pass ends (R120 to R122, R165): the steps of `END` and of an unhandled opcode, which instruction a pass
comes to that does not let it go on, that following instruction lengths through the stream finds the same one, and so that
the stream alone decides between `Stopped`, the stall and the overrun. -/

namespace Sys2Proof.Machine

/-! ### The steps that end a pass -/

/-- Settles O19: the opcode is the whole encoding of `END`, whose effect is known; the other instructions by the laws of
`afterInstr`. -/
theorem endOfStreamStep : Obligations.EndOfStreamStep := by
  refine ⟨fun s hs hop => ?_, fun i s t hexec hend => ?_⟩
  · have hstep := (step_of_encode_eq_singleton hs rfl rfl hop).trans (endMutesPausesAndStops s)
    refine ⟨_, hstep, rfl, ?_, fun ht => nomatch (interpreting_iff.1 ht).1⟩
    rw [List.append_assoc, elapsed_append]
    exact congrArg _ (elapsed_eventsOf .endStream)
  · obtain rfl := exec_next_iff.1 hexec
    refine ⟨afterInstr_run s hend, ?_⟩
    rw [afterInstr_cursor]
    cases i with
    | endStream => exact absurd rfl hend
    | _ => rfl

/-- R121: the stall: a running pass that fetches an unhandled opcode stays in its state, however long the machine runs on. -/
theorem runFor_of_fetch_unhandled {s : State} {op : Byte} (hs : Interpreting s) (h : fetch s = .ok (.unhandled op))
    (k : Nat) : runFor k s = .next s := runFor_fixed (step_of_fetch hs h) k

/-- Settles O20: the opcode is the whole encoding of an instruction without effect. -/
theorem unhandledOpcodeStallsForEver : Obligations.UnhandledOpcodeStallsForEver := by
  intro s op hs hop hunhandled
  have hwf : (Instr.unhandled op).wf = true := by rw [Instr.wf, hunhandled, Bool.not_false]
  have hfetch : fetch s = .ok (.unhandled op) := fetch_of_bytesAt hwf (bytesAt_cons_iff.2 ⟨hop, nofun⟩)
  exact ⟨step_of_fetch hs hfetch, runFor_of_fetch_unhandled hs hfetch⟩

/-! ### The end of a contiguous stream -/

theorem Memory.exists_read_of_mem_offsets {m : Memory} {a : Nat} (h : a ∈ m.map Prod.fst) : ∃ b, m.read a = some b := by
  induction m with
  | nil => cases h
  | cons c rest ih =>
    obtain ⟨k, v⟩ := c
    rw [Memory.read]
    split
    next => exact ⟨v, rfl⟩
    next hk => exact ih ((List.mem_cons.1 h).resolve_left (Ne.symm hk))

theorem Memory.length_le_of_read_none {m : Memory} (hm : m.contiguous) {a : Nat} (h : m.read a = none) :
    m.length ≤ a := by
  by_contra hlt
  have hmem : a ∈ m.map Prod.fst := hm ▸ List.mem_range.2 (not_le.1 hlt)
  obtain ⟨b, hb⟩ := Memory.exists_read_of_mem_offsets hmem
  cases h.symm.trans hb

/-- R142: the first byte that is missing stands at offset `L`. -/
theorem Misses.address_eq_length {m : Memory} (hm : m.contiguous) {c : Nat} (hc : c ≤ m.length) {e : DecodeError}
    (h : Misses m c e) : c + e.index = m.length := by
  cases h with
  | noOpcode hop => exact hc.antisymm (Memory.length_le_of_read_none hm hop)
  | noData hop _ hd => exact le_antisymm (Memory.lt_length_of_read hm hop) (Memory.length_le_of_read_none hm hd)
  | noLow hop _ hlo => exact le_antisymm (Memory.lt_length_of_read hm hop) (Memory.length_le_of_read_none hm hlo)
  | noHigh _ _ hlo hhi => exact le_antisymm (Memory.lt_length_of_read hm hlo) (Memory.length_le_of_read_none hm hhi)

/-- R40: bytes that stand at the beginning of a supplied stream are its first bytes. -/
theorem BytesAt.isPrefix {bs cs : List Byte} (h : BytesAt (Memory.ofBytes bs) 0 cs) : cs <+: bs := by
  rw [List.prefix_iff_getElem?]
  intro j hj
  rw [← Memory.read_ofBytes, ← h j _ (List.getElem?_eq_getElem hj), Nat.zero_add]

/-! ### The bytes of a fetched instruction -/

theorem Memory.bytesAt_readRun (m : Memory) (a n : Nat) : BytesAt m a (m.readRun a n) := by
  induction n generalizing a with
  | zero => exact nofun
  | succ n ih =>
    rw [Memory.readRun]
    split
    next => exact nofun
    next b hb => exact bytesAt_cons_iff.2 ⟨hb, ih (a + 1)⟩

theorem bytesAt_fetchBytes (m : Memory) (c : Nat) : BytesAt m c (fetchBytes m c) := by
  cases hop : m.read c with
  | none =>
    rw [fetchBytes_of_read_none hop]
    exact nofun
  | some op =>
    rw [fetchBytes_of_read hop]
    exact bytesAt_cons_iff.2 ⟨hop, m.bytesAt_readRun _ _⟩

/-- R61: the instruction that is fetched stands encoded at the Cursor. -/
theorem bytesAt_encode_of_fetch {s : State} {i : Instr} (h : fetch s = .ok i) :
    BytesAt s.stream s.cursor (encode i) := by
  obtain ⟨rest, hdecode⟩ := exists_decode_of_fetch h
  obtain ⟨-, hencode⟩ := wf_and_encode_of_decode hdecode
  exact (bytesAt_append_iff.1 (hencode ▸ bytesAt_fetchBytes s.stream s.cursor)).1

/-! ### Following instruction lengths

One turn of `walk` by what a machine at that offset fetches. -/

section Walk

variable {s : State} (fuel : Nat)

theorem walk_of_fetch_error {e : DecodeError} (h : fetch s = .error e) :
    walk s.stream (fuel + 1) s.cursor = .overrun (s.cursor + e.index) := by
  rw [fetch] at h
  cases hdecode : decode (fetchBytes s.stream s.cursor) with
  | ok r =>
    rw [hdecode] at h
    cases h
  | error e' =>
    rw [hdecode] at h
    obtain rfl := Except.error.inj h
    simp only [walk, hdecode]

theorem walk_of_fetch_endStream (h : fetch s = .ok .endStream) : walk s.stream (fuel + 1) s.cursor = .stopped := by
  obtain ⟨rest, hdecode⟩ := exists_decode_of_fetch h
  simp only [walk, hdecode]

theorem walk_of_fetch_unhandled {op : Byte} (h : fetch s = .ok (.unhandled op)) :
    walk s.stream (fuel + 1) s.cursor = .stall op s.cursor := by
  obtain ⟨rest, hdecode⟩ := exists_decode_of_fetch h
  simp only [walk, hdecode]

theorem walk_of_fetch_goesOn {i : Instr} (h : fetch s = .ok i) (hi : goesOn i = true) :
    walk s.stream (fuel + 1) s.cursor = walk s.stream fuel (cursorAfter i s.cursor) := by
  obtain ⟨rest, hdecode⟩ := exists_decode_of_fetch h
  cases i with
  | endStream => cases hi
  | unhandled op => cases hi
  | _ => simp only [walk, hdecode, cursorAfter]

end Walk

/-! ### The instruction that decides the pass -/

/-- R122, R165: what is fetched next does not let the pass go on, and gives it this outcome. -/
inductive DecidedAt (t : State) : PassOutcome → Prop where
  | stopped (h : fetch t = .ok .endStream) : DecidedAt t .stopped
  | stall {op : Byte} (h : fetch t = .ok (.unhandled op)) : DecidedAt t (.stall op t.cursor)
  | overrun {e : DecodeError} (h : fetch t = .error e) (hend : t.cursor + e.index = t.stream.length) :
      DecidedAt t (.overrun (t.cursor + e.index))

theorem lt_cursorAfter_of_goesOn {i : Instr} (h : goesOn i = true) (c : Nat) : c < cursorAfter i c := by
  cases i with
  | endStream => cases h
  | unhandled op => cases h
  | _ => exact Nat.lt_add_of_pos_right (by decide)

/-- The fuel of `walk` is enough: by induction on it, behind instructions that let a pass go on stands the one that decides
both the walk and the pass. -/
theorem exists_decidedAt (fuel : Nat) {s : State} (hm : s.stream.contiguous) (hc : s.cursor ≤ s.stream.length)
    (hfuel : s.stream.length < s.cursor + fuel) :
    ∃ is, (∀ i ∈ is, goesOn i = true) ∧ BytesAt s.stream s.cursor (encodeAll is) ∧
      DecidedAt (afterAll is s) (walk s.stream fuel s.cursor) := by
  induction fuel generalizing s with
  | zero => omega
  | succ fuel ih =>
    cases hfetch : fetch s with
    | error e =>
      refine ⟨[], nofun, nofun, ?_⟩
      rw [walk_of_fetch_error fuel hfetch]
      exact .overrun hfetch ((misses_of_fetch hfetch).address_eq_length hm hc)
    | ok i =>
      cases hi : goesOn i with
      | true =>
        obtain ⟨op, hop, hreads⟩ := readsAs_of_fetch hfetch
        have hlt := lt_cursorAfter_of_goesOn hi s.cursor
        have hnext := ih (s := afterInstr i s) (by simpa using hm) (by simpa using hreads.cursorAfter_le hm hop)
          (by rw [afterInstr_stream, afterInstr_cursor]; omega)
        rw [afterInstr_stream, afterInstr_cursor, ← walk_of_fetch_goesOn fuel hfetch hi] at hnext
        obtain ⟨is, hgo, hbytes, hdecided⟩ := hnext
        rw [cursorAfter_of_goesOn hi] at hbytes
        exact ⟨i :: is, List.forall_mem_cons.2 ⟨hi, hgo⟩,
          bytesAt_append_iff.2 ⟨bytesAt_encode_of_fetch hfetch, hbytes⟩, hdecided⟩
      | false =>
        refine ⟨[], nofun, nofun, ?_⟩
        cases i with
        | endStream => exact walk_of_fetch_endStream fuel hfetch ▸ .stopped hfetch
        | unhandled op => exact walk_of_fetch_unhandled fuel hfetch ▸ .stall hfetch
        | _ => cases hi

/-- R165: the same for a whole pass. -/
theorem exists_decidedAt_passOutcome {s : State} (hm : s.stream.contiguous) (hc : s.cursor = 0) :
    ∃ is, (∀ i ∈ is, goesOn i = true) ∧ BytesAt s.stream s.cursor (encodeAll is) ∧
      DecidedAt (afterAll is s) (passOutcome s.stream) := by
  have hdecided := exists_decidedAt (s.stream.length + 1) hm (hc ▸ Nat.zero_le _) (by omega)
  rwa [hc] at hdecided ⊢

/-- R120: `END` at the Cursor stops the pass in the next step. -/
theorem runFor_succ_of_fetch_endStream {n : Nat} {s t : State} (hrun : runFor n s = .next t) (ht : Interpreting t)
    (hfetch : fetch t = .ok .endStream) : runFor (n + 1) s = .next (afterInstr .endStream t) := by
  rw [runFor_add n 1 hrun]
  exact runFor_next (step_of_fetch ht hfetch) 0

/-- Settles O50: the pass runs to the instruction that decides it; `END` takes one more step, the unhandled opcode stalls,
and the missing byte overruns. -/
theorem streamAloneDecidesThePass : Obligations.StreamAloneDecidesThePass := by
  intro s hboundary hs hcursor
  obtain ⟨is, hgo, hbytes, hdecided⟩ := exists_decidedAt_passOutcome hboundary.streamContiguous hcursor
  obtain ⟨hrun, ht, -⟩ := runFor_encoded hgo hs hbytes
  generalize passOutcome s.stream = o at hdecided
  cases hdecided with
  | stopped hfetch =>
    exact ⟨_, _, runFor_succ_of_fetch_endStream hrun ht hfetch, rfl, afterInstr_cursor .endStream _⟩
  | stall hfetch =>
    exact ⟨_, _, hrun, ht, by simp only [stallVerdict, ht.inPass, hfetch],
      fun j => (runFor_add _ j hrun).trans (runFor_of_fetch_unhandled ht hfetch j)⟩
  | overrun hfetch hend =>
    exact ⟨hend.trans (by rw [afterAll_stream]), _, _,
      (runFor_add _ 1 hrun).trans (runFor_fault (step_of_fetch_error ht hfetch) 0)⟩

/-! ### The streams over which a pass stops -/

theorem Interpreting.ne_of_stopped {s t : State} (hs : Interpreting s) (ht : t.run = .stopped) : t ≠ s := by
  rintro rfl
  cases (interpreting_iff.1 hs).1.symm.trans ht

/-- A running pass that is later found `Stopped` stays where it is. -/
theorem runFor_of_runFor_stopped {k : Nat} {s t : State} (hs : Interpreting s) (h : runFor k s = .next t)
    (hstopped : t.run = .stopped) (n : Nat) : runFor n t = .next t := by
  induction k generalizing s with
  | zero => exact absurd (Host.Outcome.next.inj h).symm (hs.ne_of_stopped hstopped)
  | succ k ih =>
    cases hstep : step s with
    | next u =>
      rw [runFor_next hstep] at h
      cases hu : u.run with
      | running =>
        obtain ⟨hfits, hfault⟩ := step_next_ready hstep
        exact ih (interpreting_iff.2 ⟨hu, hfault, hfits⟩) h
      | stopped =>
        have hfixed := runFor_of_step_stopped hstep hu
        obtain rfl := Host.Outcome.next.inj ((hfixed k).symm.trans h)
        exact hfixed n
    | fault f => cases (runFor_fault hstep k).symm.trans h
    | refused r => cases (runFor_refused hstep k).symm.trans h

/-- So it stops from every state it comes through. -/
theorem runFor_stopped_of_runFor {k n : Nat} {s t u : State} (hs : Interpreting s) (ht : runFor k s = .next t)
    (hstopped : t.run = .stopped) (hu : runFor n s = .next u) : runFor k u = .next t :=
  calc runFor k u = runFor (n + k) s := (runFor_add n k hu).symm
    _ = runFor (k + n) s := by rw [Nat.add_comm]
    _ = runFor n t := runFor_add k n ht
    _ = .next t := runFor_of_runFor_stopped hs ht hstopped n

/-- R122: neither a stall nor an overrun is ever `Stopped`. -/
theorem DecidedAt.eq_stopped {o : PassOutcome} {k : Nat} {s t : State} (h : DecidedAt s o) (hs : Interpreting s)
    (hrun : runFor k s = .next t) (hstopped : t.run = .stopped) : o = .stopped := by
  have hne : t ≠ s := hs.ne_of_stopped hstopped
  cases h with
  | stopped _ => rfl
  | stall hfetch =>
    exact absurd (Host.Outcome.next.inj (hrun.symm.trans (runFor_of_fetch_unhandled hs hfetch k))) hne
  | overrun hfetch _ =>
    cases k with
    | zero => exact absurd (Host.Outcome.next.inj hrun).symm hne
    | succ k => cases hrun.symm.trans (runFor_fault (step_of_fetch_error hs hfetch) k)

theorem passOutcome_eq_stopped_iff {s : State} (hs : Interpreting s) (hm : s.stream.contiguous) (hc : s.cursor = 0) :
    passOutcome s.stream = .stopped ↔ ∃ k t, runFor k s = .next t ∧ t.run = .stopped := by
  obtain ⟨is, hgo, hbytes, hdecided⟩ := exists_decidedAt_passOutcome hm hc
  obtain ⟨hrun, ht, -⟩ := runFor_encoded hgo hs hbytes
  constructor
  · intro hout
    rw [hout] at hdecided
    cases hdecided with
    | stopped hfetch => exact ⟨_, _, runFor_succ_of_fetch_endStream hrun ht hfetch, rfl⟩
  · rintro ⟨k, t, hk, hstopped⟩
    exact hdecided.eq_stopped ht (runFor_stopped_of_runFor hs hk hstopped hrun) hstopped

/-- R165: the streams on which the walk comes to `END`, from the side of their bytes. -/
theorem passOutcome_ofBytes_eq_stopped_iff {bs : List Byte} (hlen : bs.length ≤ Config.maxStreamLength) :
    passOutcome (Memory.ofBytes bs) = .stopped ↔
      ∃ (is : List Instr) (beyond : List Byte), (∀ i ∈ is, goesOn i = true) ∧ bs = encodeAll is ++ 0x66 :: beyond := by
  have hs : Interpreting (withStream bs State.reset) :=
    interpreting_iff.2 ⟨rfl, rfl, (Memory.ofBytes_fits_iff bs).2 hlen⟩
  have hm : (withStream bs State.reset).stream.contiguous := Memory.ofBytes_contiguous bs
  constructor
  · intro hout
    obtain ⟨is, hgo, hbytes, hdecided⟩ := exists_decidedAt_passOutcome hm rfl
    obtain ⟨-, -, hcursor⟩ := runFor_encoded hgo hs hbytes
    rw [withStream_stream, hout] at hdecided
    cases hdecided with
    | stopped hfetch =>
      have hend := bytesAt_encode_of_fetch hfetch
      rw [afterAll_stream, hcursor] at hend
      obtain ⟨beyond, rfl⟩ := (bytesAt_append_iff.2 ⟨hbytes, hend⟩).isPrefix
      exact ⟨is, beyond, hgo, List.append_assoc ..⟩
  · rintro ⟨is, beyond, hgo, rfl⟩
    exact (passOutcome_eq_stopped_iff hs hm rfl).2 ⟨_, _, runFor_passEnd hgo hs (bytesAt_ofBytes _), rfl⟩

theorem wellFormedStream_iff {m : Memory} : wellFormedStream m = true ↔ m.fits = true ∧ passOutcome m = .stopped := by
  rw [wellFormedStream, Bool.and_eq_true, beq_iff_eq]

/-- R21: over a stream the Cursor cannot address no step is taken. -/
theorem fits_of_runFor_stopped {k : Nat} {s t : State} (hs : inPass s = true) (h : runFor k s = .next t)
    (hstopped : t.run = .stopped) : s.stream.fits = true := by
  cases k with
  | zero =>
    obtain rfl := Host.Outcome.next.inj h
    simp [inPass, hstopped] at hs
  | succ k =>
    by_contra hfits
    cases (runFor_refused (step_of_not_fits (Bool.eq_false_of_not_eq_true hfits)) k).symm.trans h

/-- Settles O54: the walk comes to `END` over the bytes that spell such instructions, and where it does the pass stops; a
stall, an overrun or a refusal never stops. -/
theorem wellFormedStreamsAreThoseThatStop : Obligations.WellFormedStreamsAreThoseThatStop := by
  intro bs
  constructor
  · rw [wellFormedStream_iff, Memory.ofBytes_fits_iff]
    exact and_congr_right passOutcome_ofBytes_eq_stopped_iff
  · intro s hstream hpass hcursor
    have hm : s.stream.contiguous := hstream ▸ Memory.ofBytes_contiguous bs
    rw [wellFormedStream_iff]
    constructor
    · rintro ⟨hfits, hout⟩
      exact (passOutcome_eq_stopped_iff ⟨hpass, hfits⟩ hm hcursor).1 hout
    · rintro ⟨k, t, hrun, hstopped⟩
      have hfits := fits_of_runFor_stopped hpass hrun hstopped
      exact ⟨hfits, (passOutcome_eq_stopped_iff ⟨hpass, hfits⟩ hm hcursor).2 ⟨k, t, hrun, hstopped⟩⟩

end Sys2Proof.Machine

/-! SUPPORT. The fault and the stall (R141 to R147): where a step overruns and what it leaves, the offset it reports, and that
the stall verdict names the standstill. -/

namespace Sys2Proof

theorem eq_of_classify_psgw {op : Byte} (h : classify op = .psgw) : op = 0x50 := by
  have hop : OpcodeFor op .psgw := h ▸ opcodeFor_classify op
  cases hop
  rfl

theorem eq_of_classify_wait16 {op : Byte} (h : classify op = .wait16) : op = 0x61 := by
  have hop : OpcodeFor op .wait16 := h ▸ opcodeFor_classify op
  cases hop
  rfl

end Sys2Proof

namespace Sys2Proof.Machine

/-! ### The overrun -/

theorem Misses.read_eq_none {m : Memory} {c : Nat} {e : DecodeError} (h : Misses m c e) : m.read (c + e.index) = none := by
  cases h with
  | noOpcode hop => exact hop
  | noData _ _ hd => exact hd
  | noLow _ _ hlo => exact hlo
  | noHigh _ _ _ hhi => exact hhi

/-- R141: a step overruns out of a running pass whose fetch misses a byte; the overrun reports that byte's offset, and only
`FAULT` and the Cursor are written. -/
theorem exists_misses_of_step_overrun {s t : State} {a : Nat} (ht : step s = .fault (.streamOverrun a t))
    (hnone : s.fault = none) :
    Interpreting s ∧ ∃ e, Misses s.stream s.cursor e ∧ a = s.cursor + e.index ∧
      t = { s with cursor := cursorAtOverrun e s.cursor, fault := some { addr := a } } := by
  cases stepCase s with
  | unaddressable _ h => cases ht.symm.trans h
  | faulted _ hfault _ => cases hfault.symm.trans hnone
  | stopped _ _ h => cases ht.symm.trans h
  | runs _ _ h => cases ht.symm.trans h
  | overruns hs he h =>
    cases ht.symm.trans h
    exact ⟨hs, _, misses_of_fetch he, rfl, rfl⟩

/-- R161: the lines of a session around the pass read nothing, so they cannot overrun. -/
theorem insidePass_of_sessionStep_fault {p : Session} {f : Fault} (h : sessionStep p = .fault f)
    (hp : Interpreting p.toState) : insidePass p = true := by
  obtain ⟨-, hfault, hfits⟩ := interpreting_iff.1 hp
  rcases exists_driverLine_or_insidePass p with ⟨line, d', hline⟩ | ⟨hinside, -⟩
  · cases h.symm.trans ((sessionStep_eq_driverLine hfits hfault).trans hline.driverLine_eq)
  · exact hinside

/-- Settles O35: the fetch misses the opcode, the data byte, or one of the two bytes of the count; what was read before it
tells the opcode. -/
theorem overrunHappensOnlyAtAMissingRead : Obligations.OverrunHappensOnlyAtAMissingRead := by
  refine ⟨fun s t a ht hnone => ?_, fun p t a ht hnone => ?_⟩
  · obtain ⟨hs, e, hmisses, rfl, rfl⟩ := exists_misses_of_step_overrun ht hnone
    refine ⟨hs, hmisses.read_eq_none, (interpreting_iff.1 hs).1, rfl, ?_⟩
    cases hmisses with
    | noOpcode _ => exact .inl ⟨rfl, rfl⟩
    | noData hop hclass _ => exact .inr (.inl ⟨eq_of_classify_psgw hclass ▸ hop, rfl, rfl⟩)
    | noLow hop hclass _ => exact .inr (.inr (.inl ⟨eq_of_classify_wait16 hclass ▸ hop, rfl, rfl⟩))
    | noHigh hop hclass hlo _ =>
      exact .inr (.inr (.inr ⟨eq_of_classify_wait16 hclass ▸ hop, Option.isSome_of_eq_some hlo, rfl, rfl⟩))
  · have hstep := step_fault_of_sessionStep ht
    obtain ⟨hp, -⟩ := exists_misses_of_step_overrun hstep hnone
    exact ⟨insidePass_of_sessionStep_fault ht hp, hstep⟩

/-- R142: between the steps of a machine with a supplied stream an overrun reports `L`. -/
theorem BoundaryInv.overrun_address {s t : State} {a : Nat} (hs : BoundaryInv s)
    (ht : step s = .fault (.streamOverrun a t)) : a = s.stream.length := by
  obtain ⟨-, e, hmisses, rfl, -⟩ := exists_misses_of_step_overrun ht hs.noFault
  exact hmisses.address_eq_length hs.streamContiguous hs.cursorInStream

/-- Settles O38: the first missing byte of a contiguous stream stands at its end, and a session overruns as its machine. -/
theorem overrunReportsTheStreamLength : Obligations.OverrunReportsTheStreamLength :=
  ⟨fun _ _ _ hs => hs.overrun_address, fun _ _ _ hp ht => hp.boundary.overrun_address (step_fault_of_sessionStep ht)⟩

/-! ### The stall -/

theorem stallVerdict_eq_some_iff {s : State} {op : Byte} {c : Nat} :
    stallVerdict s = some (op, c) ↔ inPass s = true ∧ fetch s = .ok (.unhandled op) ∧ s.cursor = c := by
  unfold stallVerdict
  split
  next hpass hfetch => simp [hpass, hfetch]
  next hnot =>
    refine ⟨nofun, ?_⟩
    rintro ⟨hpass, hfetch, -⟩
    exact (hnot op hpass hfetch).elim

/-- R121: in a running pass only an unhandled opcode is without effect: `END` stops the pass, and every other instruction moves
the Cursor on. -/
theorem afterInstr_eq_self_iff {s : State} {i : Instr} (hs : Interpreting s) :
    afterInstr i s = s ↔ ∃ op, i = .unhandled op := by
  constructor
  · intro hself
    cases hi : goesOn i with
    | true =>
      have hcursor : cursorAfter i s.cursor = s.cursor := (afterInstr_cursor i s).symm.trans (congrArg State.cursor hself)
      exact absurd hcursor (lt_cursorAfter_of_goesOn hi s.cursor).ne'
    | false =>
      cases i with
      | endStream => exact absurd hself (hs.ne_of_stopped (afterInstr_endStream_run s))
      | unhandled op => exact ⟨op, rfl⟩
      | _ => cases hi
  · rintro ⟨op, rfl⟩
    rfl

/-- R147: in a running pass the machine stands still exactly where it fetches an unhandled opcode. -/
theorem step_eq_self_iff {s : State} (hs : Interpreting s) :
    step s = .next s ↔ ∃ op, fetch s = .ok (.unhandled op) := by
  constructor
  · intro hself
    cases hfetch : fetch s with
    | error e => cases hself.symm.trans (step_of_fetch_error hs hfetch)
    | ok i =>
      have hafter : afterInstr i s = s := Host.Outcome.next.inj ((step_of_fetch hs hfetch).symm.trans hself)
      obtain ⟨op, rfl⟩ := (afterInstr_eq_self_iff hs).1 hafter
      exact ⟨op, rfl⟩
  · rintro ⟨op, hfetch⟩
    exact step_of_fetch hs hfetch

theorem read_of_fetch_unhandled {s : State} {op : Byte} (h : fetch s = .ok (.unhandled op)) :
    s.stream.read s.cursor = some op :=
  (bytesAt_cons_iff.1 (bytesAt_encode_of_fetch h)).1

/-- Settles O21: both sides say that an unhandled opcode is fetched, which is then the byte at the Cursor. -/
theorem stallVerdictNamesTheStandstill : Obligations.StallVerdictNamesTheStandstill := by
  intro s hs
  rw [step_eq_self_iff hs]
  refine exists_congr fun op => ?_
  rw [stallVerdict_eq_some_iff]
  exact ⟨fun hfetch => ⟨read_of_fetch_unhandled hfetch, hs.inPass, hfetch, rfl⟩, fun ⟨_, _, hfetch, _⟩ => hfetch⟩

end Sys2Proof.Machine

/-! SUPPORT. Where an event of a disciplined trace stands (R166, R167): inside one whole block, so that what surrounds `WE(0)`
and `SPI` is what surrounds them in a write transaction. -/

namespace Sys2Proof.Machine

/-- The events `blk` stand in `tr`, one after the other, from position `j` on. -/
def StandsAt (blk tr : List Event) (j : Nat) : Prop :=
  ∀ (k : Nat) (e : Event), blk[k]? = some e → tr[j + k]? = some e

theorem StandsAt.append_right {blk tr : List Event} {j : Nat} (h : StandsAt blk tr j) (ev : List Event) :
    StandsAt blk (tr ++ ev) j := by
  intro k e he
  have hat : tr[j + k]? = some e := h k e he
  rwa [List.getElem?_append_left (List.getElem?_eq_some_iff.1 hat).1]

theorem standsAt_append_length (tr blk : List Event) : StandsAt blk (tr ++ blk) tr.length := by
  intro k e he
  rwa [List.getElem?_append_right (Nat.le_add_right _ _), Nat.add_sub_cancel_left]

/-- Every event of a disciplined trace lies in a block that stands whole in the trace. -/
theorem BusTrace.exists_block_of_getElem? {tr : List Event} (h : BusTrace tr) {i : Nat} {e : Event}
    (hi : tr[i]? = some e) : ∃ j k blk, i = j + k ∧ BusBlock blk ∧ blk[k]? = some e ∧ StandsAt blk tr j := by
  induction h using BusTrace.block_induction with
  | empty => simp at hi
  | append tr blk _ hblk ih =>
    rcases Nat.lt_or_ge i tr.length with hlt | hge
    · rw [List.getElem?_append_left hlt] at hi
      obtain ⟨j, k, blk', hik, hblk', hk, hat⟩ := ih hi
      exact ⟨j, k, blk', hik, hblk', hk, hat.append_right blk⟩
    · rw [List.getElem?_append_right hge] at hi
      exact ⟨tr.length, i - tr.length, blk, (Nat.add_sub_cancel' hge).symm, hblk, hi, standsAt_append_length tr blk⟩

/-- R81: of the seven events of a write transaction only the one at position 4 lowers write-enable. -/
theorem transaction_getElem?_eq_we_zero {b : Byte} {k : Nat} (h : (transaction b)[k]? = some (.we 0)) : k = 4 := by
  have hk : k < 7 := (List.getElem?_eq_some_iff.1 h).1
  interval_cases k <;> simp [transaction] at h ⊢

/-- R81: of the seven events of a write transaction only the one at position 2 transfers a byte. -/
theorem transaction_getElem?_eq_spi {b c : Byte} {k : Nat} (h : (transaction b)[k]? = some (.spi c)) : k = 2 := by
  have hk : k < 7 := (List.getElem?_eq_some_iff.1 h).1
  interval_cases k <;> simp [transaction] at h ⊢

/-- R81, R166: the only block that lowers write-enable is a write transaction. -/
theorem BusBlock.eq_transaction_of_we_zero {blk : List Event} {k : Nat} (h : BusBlock blk)
    (hk : blk[k]? = some (.we 0)) : ∃ b, blk = transaction b ∧ k = 4 := by
  cases h with
  | write b => exact ⟨b, rfl, transaction_getElem?_eq_we_zero hk⟩
  | _ => simp [List.getElem?_singleton] at hk

/-- R81, R167: the only block that transfers a byte is a write transaction. -/
theorem BusBlock.eq_transaction_of_spi {blk : List Event} {k : Nat} {b : Byte} (h : BusBlock blk)
    (hk : blk[k]? = some (.spi b)) : ∃ c, blk = transaction c ∧ k = 2 := by
  cases h with
  | write c => exact ⟨c, rfl, transaction_getElem?_eq_spi hk⟩
  | _ => simp [List.getElem?_singleton] at hk

/-- Settles O42: `WE(0)` and `SPI` stand in a whole write transaction, at one position each, and the events around them are
its other events. -/
theorem disciplinedTraceKeepsThePulseContract : Obligations.DisciplinedTraceKeepsThePulseContract := by
  intro tr htr i
  constructor
  · intro hi
    obtain ⟨j, k, blk, rfl, hblk, hk, hat⟩ := htr.exists_block_of_getElem? hi
    obtain ⟨b, rfl, rfl⟩ := hblk.eq_transaction_of_we_zero hk
    exact ⟨hat 5 _ rfl, hat 6 _ rfl⟩
  · intro b hi
    obtain ⟨j, k, blk, rfl, hblk, hk, hat⟩ := htr.exists_block_of_getElem? hi
    obtain ⟨c, rfl, rfl⟩ := hblk.eq_transaction_of_spi hk
    exact ⟨j, rfl, hat 0 _ rfl, hat 1 _ rfl, hat 3 _ rfl, hat 4 _ rfl⟩

end Sys2Proof.Machine
